-- ==== Sys2Proof/Word.lean ====
section
/-! DEFINITION. The fixed widths of the machine (00_scope.md R8): one byte, one host word, one operand, one raw sample. -/

namespace Sys2Proof

/-- A device register, a register address, or a field code: 8 bits (R8). -/
abbrev Byte := BitVec 8

/-- A host word: the command word, `RES`, `DATA`, `CSR` (R8). -/
abbrev Word := BitVec 32

/-- The operand of a command, bits 23:0 of its word (R80). -/
abbrev Operand := BitVec 24

/-- A raw sample, a 16-bit pattern read as two's complement (R8, R10). -/
abbrev Sample := BitVec 16

end Sys2Proof
end

