-- ==== Sys2Proof/Syntax.lean ====
section
/-! DEFINITION. The syntax: one constructor per row of the opcode table (30_encoding.md R81). Every command carries
its whole 24-bit operand, because an operand outside the class is the same command ending in a validation failure
(R82, R88), not another command. -/

namespace Sys2Proof

/-- The thirty commands of R81. -/
inductive Instr where
  /-- `INIT`, class NONE (R250). -/
  | init (arg : Operand)
  /-- `SET_XL_RANGE`, class XL_RANGE (R130). -/
  | setXlRange (arg : Operand)
  /-- `GET_XL_RANGE`, class NONE (R131). -/
  | getXlRange (arg : Operand)
  /-- `SET_XL_ODR`, class XL_ODR (R132). -/
  | setXlOdr (arg : Operand)
  /-- `GET_XL_ODR`, class NONE (R133). -/
  | getXlOdr (arg : Operand)
  /-- `SET_XL_HP`, class BOOL (R134). -/
  | setXlHp (arg : Operand)
  /-- `GET_XL_HP`, class NONE (R135). -/
  | getXlHp (arg : Operand)
  /-- `SET_XL_EN`, class BOOL (R136). -/
  | setXlEn (arg : Operand)
  /-- `GET_XL_EN`, class NONE (R137). -/
  | getXlEn (arg : Operand)
  /-- `SET_XL_FSMODE`, class BOOL (R138). -/
  | setXlFsmode (arg : Operand)
  /-- `GET_XL_FSMODE`, class NONE (R139). -/
  | getXlFsmode (arg : Operand)
  /-- `SET_G_RANGE`, class G_RANGE (R160). -/
  | setGRange (arg : Operand)
  /-- `GET_G_RANGE`, class NONE (R161). -/
  | getGRange (arg : Operand)
  /-- `SET_G_ODR`, class G_ODR (R162). -/
  | setGOdr (arg : Operand)
  /-- `GET_G_ODR`, class NONE (R163). -/
  | getGOdr (arg : Operand)
  /-- `SET_G_HP`, class BOOL (R164). -/
  | setGHp (arg : Operand)
  /-- `GET_G_HP`, class NONE (R165). -/
  | getGHp (arg : Operand)
  /-- `SET_G_EN`, class BOOL (R166). -/
  | setGEn (arg : Operand)
  /-- `GET_G_EN`, class NONE (R167). -/
  | getGEn (arg : Operand)
  /-- `SET_BDU`, class BOOL (R190). -/
  | setBdu (arg : Operand)
  /-- `GET_BDU`, class NONE (R191). -/
  | getBdu (arg : Operand)
  /-- `SET_EMB`, class BOOL (R192). -/
  | setEmb (arg : Operand)
  /-- `GET_EMB`, class NONE (R193). -/
  | getEmb (arg : Operand)
  /-- `READ_XL`, class AXIS (R215). -/
  | readXl (arg : Operand)
  /-- `READ_G`, class AXIS (R216). -/
  | readG (arg : Operand)
  /-- `READ_RAW_XL`, class AXIS (R233). -/
  | readRawXl (arg : Operand)
  /-- `READ_RAW_G`, class AXIS (R234). -/
  | readRawG (arg : Operand)
  /-- `GET_DRDY`, class NONE (R251). -/
  | getDrdy (arg : Operand)
  /-- `GET_ALLONES`, class NONE (R252). -/
  | getAllones (arg : Operand)
  /-- `GET_OTHERFAIL`, class NONE (R253). -/
  | getOtherfail (arg : Operand)
deriving DecidableEq, Repr

/-- The operand classes of R82. -/
inductive OperandClass where
  | none | bool | axis | xlRange | gRange | xlOdr | gOdr
deriving DecidableEq, Repr

namespace Instr

/-- The operand of a command, bits 23:0 of its word (R80). -/
def operand : Instr → Operand
  | .init a | .setXlRange a | .getXlRange a => a
  | .setXlOdr a | .getXlOdr a | .setXlHp a => a
  | .getXlHp a | .setXlEn a | .getXlEn a => a
  | .setXlFsmode a | .getXlFsmode a | .setGRange a => a
  | .getGRange a | .setGOdr a | .getGOdr a => a
  | .setGHp a | .getGHp a | .setGEn a => a
  | .getGEn a | .setBdu a | .getBdu a => a
  | .setEmb a | .getEmb a | .readXl a => a
  | .readG a | .readRawXl a | .readRawG a => a
  | .getDrdy a | .getAllones a | .getOtherfail a => a

/-- The operand class of each command (R81, column "operand class"). -/
def cls : Instr → OperandClass
  | .init _ => .none
  | .setXlRange _ => .xlRange
  | .getXlRange _ => .none
  | .setXlOdr _ => .xlOdr
  | .getXlOdr _ => .none
  | .setXlHp _ => .bool
  | .getXlHp _ => .none
  | .setXlEn _ => .bool
  | .getXlEn _ => .none
  | .setXlFsmode _ => .bool
  | .getXlFsmode _ => .none
  | .setGRange _ => .gRange
  | .getGRange _ => .none
  | .setGOdr _ => .gOdr
  | .getGOdr _ => .none
  | .setGHp _ => .bool
  | .getGHp _ => .none
  | .setGEn _ => .bool
  | .getGEn _ => .none
  | .setBdu _ => .bool
  | .getBdu _ => .none
  | .setEmb _ => .bool
  | .getEmb _ => .none
  | .readXl _ => .axis
  | .readG _ => .axis
  | .readRawXl _ => .axis
  | .readRawG _ => .axis
  | .getDrdy _ => .none
  | .getAllones _ => .none
  | .getOtherfail _ => .none

/-- The commands that need `READY = 1`: all but `INIT`, `GET_ALLONES` and `GET_OTHERFAIL` (R81, R90). -/
def needsReady : Instr → Bool
  | .init _ | .getAllones _ | .getOtherfail _ => false
  | .setXlRange _ | .getXlRange _ | .setXlOdr _ => true
  | .getXlOdr _ | .setXlHp _ | .getXlHp _ => true
  | .setXlEn _ | .getXlEn _ | .setXlFsmode _ => true
  | .getXlFsmode _ | .setGRange _ | .getGRange _ => true
  | .setGOdr _ | .getGOdr _ | .setGHp _ => true
  | .getGHp _ | .setGEn _ | .getGEn _ => true
  | .setBdu _ | .getBdu _ | .setEmb _ => true
  | .getEmb _ | .readXl _ | .readG _ => true
  | .readRawXl _ | .readRawG _ | .getDrdy _ => true

end Instr
end Sys2Proof
end

