-- ==== Sys2Proof/Decode.lean ====
section
/-! DEFINITION. Decoding a 32-bit command word (30_encoding.md R80, R81, R87, R91) and, after it, encoding.
Decoding is total: a word is one of the thirty commands or is rejected by name. -/

namespace Sys2Proof

/-- Why a word is no command. -/
inductive DecodeError where
  /-- The opcode is none of R81 (R87); raised by `decode`, whatever the operand. -/
  | illegalOpcode (op : Byte)
deriving DecidableEq, Repr

/-- Bits 31:24 of a command word (R80). -/
def opcodeOf (w : Word) : Byte := w.extractLsb' 24 8

/-- Bits 23:0 of a command word (R80). -/
def operandOf (w : Word) : Operand := w.extractLsb' 0 24

/-- The command a word stands for: the opcode selects the row of R81, the operand is taken whole. -/
def decode (w : Word) : Except DecodeError Instr :=
  match (opcodeOf w).toNat with
  | 0x01 => .ok (.init (operandOf w))
  | 0x10 => .ok (.setXlRange (operandOf w))
  | 0x11 => .ok (.getXlRange (operandOf w))
  | 0x12 => .ok (.setXlOdr (operandOf w))
  | 0x13 => .ok (.getXlOdr (operandOf w))
  | 0x14 => .ok (.setXlHp (operandOf w))
  | 0x15 => .ok (.getXlHp (operandOf w))
  | 0x16 => .ok (.setXlEn (operandOf w))
  | 0x17 => .ok (.getXlEn (operandOf w))
  | 0x18 => .ok (.setXlFsmode (operandOf w))
  | 0x19 => .ok (.getXlFsmode (operandOf w))
  | 0x20 => .ok (.setGRange (operandOf w))
  | 0x21 => .ok (.getGRange (operandOf w))
  | 0x22 => .ok (.setGOdr (operandOf w))
  | 0x23 => .ok (.getGOdr (operandOf w))
  | 0x24 => .ok (.setGHp (operandOf w))
  | 0x25 => .ok (.getGHp (operandOf w))
  | 0x26 => .ok (.setGEn (operandOf w))
  | 0x27 => .ok (.getGEn (operandOf w))
  | 0x30 => .ok (.setBdu (operandOf w))
  | 0x31 => .ok (.getBdu (operandOf w))
  | 0x32 => .ok (.setEmb (operandOf w))
  | 0x33 => .ok (.getEmb (operandOf w))
  | 0x40 => .ok (.readXl (operandOf w))
  | 0x41 => .ok (.readG (operandOf w))
  | 0x48 => .ok (.readRawXl (operandOf w))
  | 0x49 => .ok (.readRawG (operandOf w))
  | 0x50 => .ok (.getDrdy (operandOf w))
  | 0x60 => .ok (.getAllones (operandOf w))
  | 0x61 => .ok (.getOtherfail (operandOf w))
  | _ => .error (.illegalOpcode (opcodeOf w))

/-- The opcode of each command (R81). -/
def Instr.opcode : Instr → Byte
  | .init _ => 0x01
  | .setXlRange _ => 0x10
  | .getXlRange _ => 0x11
  | .setXlOdr _ => 0x12
  | .getXlOdr _ => 0x13
  | .setXlHp _ => 0x14
  | .getXlHp _ => 0x15
  | .setXlEn _ => 0x16
  | .getXlEn _ => 0x17
  | .setXlFsmode _ => 0x18
  | .getXlFsmode _ => 0x19
  | .setGRange _ => 0x20
  | .getGRange _ => 0x21
  | .setGOdr _ => 0x22
  | .getGOdr _ => 0x23
  | .setGHp _ => 0x24
  | .getGHp _ => 0x25
  | .setGEn _ => 0x26
  | .getGEn _ => 0x27
  | .setBdu _ => 0x30
  | .getBdu _ => 0x31
  | .setEmb _ => 0x32
  | .getEmb _ => 0x33
  | .readXl _ => 0x40
  | .readG _ => 0x41
  | .readRawXl _ => 0x48
  | .readRawG _ => 0x49
  | .getDrdy _ => 0x50
  | .getAllones _ => 0x60
  | .getOtherfail _ => 0x61

/-- The word of a command: `(opcode << 24) | operand` (R80, R92). -/
def encode (i : Instr) : Word := i.opcode ++ i.operand

/-- The command read from an instruction whose bits are `w`. A command is one word of 32 bits (R91), so the bits at and
above `nbits` are zero and there are none above 31. -/
def decodeTableWord (nbits w : Nat) : Option Instr :=
  match decode (BitVec.ofNat 32 (w % 2 ^ nbits)) with
  | .ok i => some i
  | .error _ => none

end Sys2Proof
end

