-- ==== Sys2Proof/Config.lean ====
section
/-! DEFINITION. The implementation parameters `Cfg` of 00_scope.md R7 as plain data, and the enumerations of the
settings (10_state.md R36, 30_encoding.md R82) in which they are written. Their defaults and their well-formedness
(R97) stand in Machine/Params.lean. -/

namespace Sys2Proof

/-- The axes of a sensor (R82, class AXIS). -/
inductive Axis where
  | x | y | z
deriving DecidableEq, Repr

/-- The accelerometer ranges (R36): 2g, 4g, 8g, 16g. -/
inductive XlRange where
  | g2 | g4 | g8 | g16
deriving DecidableEq, Repr

/-- The gyroscope ranges in dps (R36). -/
inductive GRange where
  | dps125 | dps250 | dps500 | dps1000 | dps2000
deriving DecidableEq, Repr

/-- The accelerometer output data rates (R36, R84). -/
inductive XlRate where
  | off | hz1_6 | hz12_5 | hz26 | hz52 | hz104 | hz208 | hz416 | hz833 | hz1660 | hz3330 | hz6660
deriving DecidableEq, Repr

/-- The gyroscope output data rates: those of the accelerometer without 1.6 Hz (R36, R84). -/
inductive GRate where
  | off | hz12_5 | hz26 | hz52 | hz104 | hz208 | hz416 | hz833 | hz1660 | hz3330 | hz6660
deriving DecidableEq, Repr

/-- A field descriptor `<reg, lsb, w, inv>` (R62, R94). -/
structure Field where
  reg : Byte
  lsb : Nat
  w   : Nat
  inv : Bool
deriving DecidableEq, Repr

/-- `ODR_CODE_XL`: the field code of each accelerometer rate (R99). -/
structure XlOdrCodes where
  off    : Byte
  hz1_6  : Byte
  hz12_5 : Byte
  hz26   : Byte
  hz52   : Byte
  hz104  : Byte
  hz208  : Byte
  hz416  : Byte
  hz833  : Byte
  hz1660 : Byte
  hz3330 : Byte
  hz6660 : Byte
deriving DecidableEq, Repr

/-- `ODR_CODE_G`: the field code of each gyroscope rate (R99). -/
structure GOdrCodes where
  off    : Byte
  hz12_5 : Byte
  hz26   : Byte
  hz52   : Byte
  hz104  : Byte
  hz208  : Byte
  hz416  : Byte
  hz833  : Byte
  hz1660 : Byte
  hz3330 : Byte
  hz6660 : Byte
deriving DecidableEq, Repr

/-- `FP_EVAL`: the evaluation format of the scaler (R7, R213). -/
inductive FpEval where
  | binary64 | binary32
deriving DecidableEq, Repr

/-- The configuration record `Cfg` of R7: every named parameter of the engine. Fixed for a machine; no step changes it. -/
structure Cfg where
  /-- `DEV_ADDR`, 7 bits, left open by the spec (D33). -/
  devAddr     : BitVec 7
  regWhoAmI   : Byte
  whoAmIValue : Byte
  regCtrlXl   : Byte
  regCtrlG    : Byte
  regCtrlC    : Byte
  regHpXl     : Byte
  regHpG      : Byte
  regFsm      : Byte
  regEmb      : Byte
  regStatus   : Byte
  outGBase    : Byte
  outXlBase   : Byte
  fXlOdr      : Field
  fXlFs       : Field
  fGOdr       : Field
  fGFs        : Field
  fGFs125     : Field
  fBdu        : Field
  fIfInc      : Field
  fXlFsmode   : Field
  fXlHp       : Field
  fGHp        : Field
  fEmb        : Field
  odrCodeXl   : XlOdrCodes
  odrCodeG    : GOdrCodes
  enableOdrXl : XlRate
  enableOdrG  : GRate
  drdyMask    : Byte
  cntWidth    : Nat
  fpEval      : FpEval
deriving DecidableEq, Repr

end Sys2Proof
end

