-- ==== Sys2Proof/Machine/Params.lean ====
section
/-! DEFINITION. The field primitives (20_memory.md R62), the default configuration (00_scope.md R7, 30_encoding.md R95,
R99) and the well-formedness of a configuration (30_encoding.md R97). -/

namespace Sys2Proof

/-! ### Field primitives (R62) -/

/-- The low `w` bits set, as a byte. -/
def lowMask (w : Nat) : Byte := BitVec.ofNat 8 (2 ^ w - 1)

/-- `fmask(F)`: the bits of a register that belong to a field (R62). -/
def Field.mask (f : Field) : Byte := lowMask f.w <<< f.lsb

/-- `fget(b, F)`: the field's value in a byte (R62). -/
def Field.get (f : Field) (b : Byte) : Byte := (b >>> f.lsb) &&& lowMask f.w

/-- `fput(b, F, v)`: the byte with the field's bits replaced and every other bit kept (R62). -/
def Field.put (f : Field) (b v : Byte) : Byte := (b &&& ~~~f.mask) ||| ((v <<< f.lsb) &&& f.mask)

/-- The stored bit of a one-bit field as a semantic boolean: `fget(b, F) ^ F.inv` (R64, R101). -/
def Field.getBool (f : Field) (b : Byte) : Bool := (f.get b).getLsbD 0 ^^ f.inv

/-- The stored bit that stands for a semantic boolean: `v ^ F.inv` (R65). -/
def Field.ofBool (f : Field) (v : Bool) : Byte := if v ^^ f.inv then 1 else 0

/-! ### Rate codes (R99) -/

/-- `ODR_CODE_XL[v]` (R99). -/
def XlOdrCodes.code (t : XlOdrCodes) : XlRate → Byte
  | .off => t.off
  | .hz1_6 => t.hz1_6
  | .hz12_5 => t.hz12_5
  | .hz26 => t.hz26
  | .hz52 => t.hz52
  | .hz104 => t.hz104
  | .hz208 => t.hz208
  | .hz416 => t.hz416
  | .hz833 => t.hz833
  | .hz1660 => t.hz1660
  | .hz3330 => t.hz3330
  | .hz6660 => t.hz6660

/-- `ODR_CODE_G[v]` (R99). -/
def GOdrCodes.code (t : GOdrCodes) : GRate → Byte
  | .off => t.off
  | .hz12_5 => t.hz12_5
  | .hz26 => t.hz26
  | .hz52 => t.hz52
  | .hz104 => t.hz104
  | .hz208 => t.hz208
  | .hz416 => t.hz416
  | .hz833 => t.hz833
  | .hz1660 => t.hz1660
  | .hz3330 => t.hz3330
  | .hz6660 => t.hz6660

/-- Every accelerometer rate, in the order of R84. -/
def XlRate.all : List XlRate :=
  [.off, .hz1_6, .hz12_5, .hz26, .hz52, .hz104, .hz208, .hz416, .hz833, .hz1660, .hz3330, .hz6660]

/-- Every gyroscope rate, in the order of R84. -/
def GRate.all : List GRate :=
  [.off, .hz12_5, .hz26, .hz52, .hz104, .hz208, .hz416, .hz833, .hz1660, .hz3330, .hz6660]

/-- The inverse of `ODR_CODE_XL`: the rate with a given code, if there is one (R99). -/
def XlOdrCodes.rate (t : XlOdrCodes) (c : Byte) : Option XlRate := XlRate.all.find? fun r => t.code r == c

/-- The inverse of `ODR_CODE_G`: the rate with a given code, if there is one (R99). -/
def GOdrCodes.rate (t : GOdrCodes) (c : Byte) : Option GRate := GRate.all.find? fun r => t.code r == c

namespace Cfg

/-! ### The default configuration -/

/-- The defaults of R7, R95 and R99. The register map, the field positions, the rate codes and the polarities are
those of the ST LSM6DSO family (PRESUMED by the spec itself, 93_implementation_defined.md G1 to G6). `DEV_ADDR` is OPEN
in the spec (D33); 0x6B is the value of its examples (DESIGN CHOICE). -/
def default : Cfg where
  devAddr := 0x6B
  regWhoAmI := 0x0F
  whoAmIValue := 0x6C
  regCtrlXl := 0x10
  regCtrlG := 0x11
  regCtrlC := 0x12
  regHpXl := 0x15
  regHpG := 0x16
  regFsm := 0x17
  regEmb := 0x01
  regStatus := 0x1E
  outGBase := 0x22
  outXlBase := 0x28
  fXlOdr := ⟨0x10, 4, 4, false⟩
  fXlFs := ⟨0x10, 2, 2, false⟩
  fGOdr := ⟨0x11, 4, 4, false⟩
  fGFs := ⟨0x11, 2, 2, false⟩
  fGFs125 := ⟨0x11, 1, 1, false⟩
  fBdu := ⟨0x12, 6, 1, false⟩
  fIfInc := ⟨0x12, 2, 1, false⟩
  fXlFsmode := ⟨0x17, 1, 1, false⟩
  fXlHp := ⟨0x15, 4, 1, true⟩
  fGHp := ⟨0x16, 7, 1, true⟩
  fEmb := ⟨0x01, 7, 1, false⟩
  odrCodeXl := ⟨0x0, 0xB, 0x1, 0x2, 0x3, 0x4, 0x5, 0x6, 0x7, 0x8, 0x9, 0xA⟩
  odrCodeG := ⟨0x0, 0x1, 0x2, 0x3, 0x4, 0x5, 0x6, 0x7, 0x8, 0x9, 0xA⟩
  enableOdrXl := .hz104
  enableOdrG := .hz104
  drdyMask := 0x03
  cntWidth := 32
  fpEval := .binary64

/-! ### The device addresses a configuration names (R35, R96, R104) -/

/-- The eleven field descriptors of R95. -/
def fields (c : Cfg) : List Field :=
  [c.fXlOdr, c.fXlFs, c.fGOdr, c.fGFs, c.fGFs125, c.fBdu, c.fIfInc, c.fXlFsmode, c.fXlHp, c.fGHp, c.fEmb]

/-- The control registers of R53 item 2. -/
def controlAddrs (c : Cfg) : List Byte :=
  [c.regCtrlXl, c.regCtrlG, c.regCtrlC, c.regFsm, c.regHpXl, c.regHpG, c.regEmb]

/-- The registers whose reads are draws, R53 item 5: the twelve sample registers and `REG_STATUS`. -/
def drawAddrs (c : Cfg) : List Byte :=
  [c.outXlBase, c.outXlBase + 1, c.outXlBase + 2, c.outXlBase + 3, c.outXlBase + 4, c.outXlBase + 5,
   c.outGBase, c.outGBase + 1, c.outGBase + 2, c.outGBase + 3, c.outGBase + 4, c.outGBase + 5, c.regStatus]

/-! ### Well-formedness (R97) -/

/-- R97 item 1. -/
def wfShape (c : Cfg) : Bool :=
  c.fields.all fun f => decide (1 ≤ f.w) && decide (f.lsb + f.w ≤ 8) && (decide (f.w ≤ 1) || !f.inv)

/-- R97 item 2. -/
def wfWidths (c : Cfg) : Bool :=
  c.fXlFs.w == 2 && c.fGFs.w == 2 &&
  [c.fGFs125, c.fXlFsmode, c.fBdu, c.fIfInc, c.fXlHp, c.fGHp, c.fEmb].all fun f => f.w == 1

/-- R97 item 3. -/
def wfRegs (c : Cfg) : Bool :=
  c.fXlOdr.reg == c.regCtrlXl && c.fXlFs.reg == c.regCtrlXl &&
  c.fGOdr.reg == c.regCtrlG && c.fGFs.reg == c.regCtrlG && c.fGFs125.reg == c.regCtrlG &&
  c.fBdu.reg == c.regCtrlC && c.fIfInc.reg == c.regCtrlC &&
  c.fXlFsmode.reg == c.regFsm && c.fXlHp.reg == c.regHpXl && c.fGHp.reg == c.regHpG &&
  c.fEmb.reg == c.regEmb && c.regFsm != c.regCtrlXl

/-- R97 item 4: two descriptors with the same register have disjoint masks. -/
def wfDisjoint (c : Cfg) : Bool :=
  decide (c.fields.Pairwise fun f g => f.reg = g.reg → f.mask &&& g.mask = 0)

/-- R97 item 5: the codes fit their fields and the tables are injective. -/
def wfCodes (c : Cfg) : Bool :=
  (XlRate.all.all fun r => decide ((c.odrCodeXl.code r).toNat < 2 ^ c.fXlOdr.w)) &&
  (GRate.all.all fun r => decide ((c.odrCodeG.code r).toNat < 2 ^ c.fGOdr.w)) &&
  decide (XlRate.all.map c.odrCodeXl.code).Nodup && decide (GRate.all.map c.odrCodeG.code).Nodup

/-- R97 item 6. That the two rates are in `XL_ODR` and `G_ODR` is their type. -/
def wfEnable (c : Cfg) : Bool := c.enableOdrXl != .off && c.enableOdrXl != .hz1_6 && c.enableOdrG != .off

/-- R97 item 7. -/
def wfBases (c : Cfg) : Bool := decide (c.outXlBase.toNat + 5 ≤ 0xFF) && decide (c.outGBase.toNat + 5 ≤ 0xFF)

/-- R97 item 8. -/
def wfAddrs (c : Cfg) : Bool :=
  decide (c.regWhoAmI :: c.drawAddrs).Nodup &&
  (c.regWhoAmI :: c.drawAddrs).all fun a => !c.controlAddrs.contains a

/-- R97 item 9 and R254. That `FP_EVAL` is one of its two values is its type. -/
def wfWidth (c : Cfg) : Bool := decide (1 ≤ c.cntWidth) && decide (c.cntWidth ≤ 32)

/-- The nine conditions of R97. A model refuses a configuration that fails any of them (93 U11). -/
def wf (c : Cfg) : Bool :=
  c.wfShape && c.wfWidths && c.wfRegs && c.wfDisjoint && c.wfCodes && c.wfEnable && c.wfBases && c.wfAddrs && c.wfWidth

end Cfg
end Sys2Proof
end

