-- ==== Sys2Proof/Machine/Flags.lean ====
section
/-! DEFINITION. The engine has no condition flags (10_state.md R33): its one outcome indicator is the status code of
`RES[3:0]` (30_encoding.md R85, R86), and its one status register is `CSR` (10_state.md R30). -/

namespace Sys2Proof.Machine

/-- The status codes of R86. Codes 0x7 to 0xF are reserved and have no name, so no rule can write them (R88). -/
inductive Status where
  | ok | errTransport | errInvalid | errIllegalOp | errNotReady | errIdMismatch | errBadCode
deriving DecidableEq, Repr

/-- `code(E)`: the four bits of a status (R86). -/
def Status.code : Status → BitVec 4
  | .ok => 0x0
  | .errTransport => 0x1
  | .errInvalid => 0x2
  | .errIllegalOp => 0x3
  | .errNotReady => 0x4
  | .errIdMismatch => 0x5
  | .errBadCode => 0x6

/-- `RES` as the host reads it: the four stored bits, bits 31:4 hardwired 0 (R22, R52). -/
def resWord (res : BitVec 4) : Word := res.setWidth 32

/-- `CSR` as the host reads it: bit 0 `BUSY`, bit 1 `READY`, the others 0 (R30, R52). -/
def csrWord (ready busy : Bool) : Word := (BitVec.ofBool ready ++ BitVec.ofBool busy).setWidth 32

end Sys2Proof.Machine
end

