-- ==== Sys2Proof/Machine/Float.lean ====
section
/-! DEFINITION. The arithmetic of the sensitivity scaler (43_scaling.md R211 to R214; notation of 00_scope.md R14):
binary64 and binary32 values as sign, significand and exponent, every operation computed exactly on natural numbers and
rounded once, to nearest, ties to even. -/

namespace Sys2Proof

/-- A binary floating-point format: its precision in bits and the exponent of its least positive value. The greatest
exponent is not kept: no value of the scaler comes near it (R214), and `Fp.bits32` maps what would exceed binary32 to
infinity. -/
structure FpFormat where
  prec : Nat
  emin : Int
deriving DecidableEq, Repr

/-- IEEE 754 binary64 (R14). -/
def binary64 : FpFormat := ⟨53, -1074⟩

/-- IEEE 754 binary32 (R14). -/
def binary32 : FpFormat := ⟨24, -149⟩

/-- A finite value `(-1)^neg * sig * 2^exp`. -/
structure Fp where
  neg : Bool
  sig : Nat
  exp : Int
deriving DecidableEq, Repr

/-- The magnitude of a value as a fraction of natural numbers. -/
def Fp.num (x : Fp) : Nat := x.sig <<< x.exp.toNat

/-- The denominator of the magnitude, a power of two. -/
def Fp.den (x : Fp) : Nat := 1 <<< (-x.exp).toNat

/-- The quotient `n / d` rounded to an integer, to nearest, ties to even (`d > 0`). -/
def divNearestEven (n d : Nat) : Nat :=
  let q := n / d
  let r := n % d
  if 2 * r < d then q
  else if d < 2 * r then q + 1
  else if q % 2 = 0 then q else q + 1

/-- The floor of the base-2 logarithm of `n / d`, for `n` and `d` not 0. -/
def log2Ratio (n d : Nat) : Int :=
  let k : Int := (n.log2 : Int) - (d.log2 : Int)
  if d <<< k.toNat ≤ n <<< (-k).toNat then k else k - 1

/-- The exponent of the last significand bit when `n / d` is rounded to a format. -/
def lastExp (f : FpFormat) (n d : Nat) : Int := max (log2Ratio n d - ((f.prec : Int) - 1)) f.emin

/-- The exact value `(-1)^neg * n / d` rounded to a format, to nearest, ties to even (R14). Zero keeps the sign given. -/
def roundTo (f : FpFormat) (neg : Bool) (n d : Nat) : Fp :=
  if n = 0 then ⟨neg, 0, f.emin⟩
  else
    let e := lastExp f n d
    ⟨neg, divNearestEven (n <<< (-e).toNat) (d <<< e.toNat), e⟩

/-- Multiplication in a format: `mul64`, `mul32` (R14). -/
def Fp.mul (f : FpFormat) (x y : Fp) : Fp := roundTo f (x.neg ^^ y.neg) (x.num * y.num) (x.den * y.den)

/-- Division in a format by a divisor that is not zero: `div64`, `div32` (R14). -/
def Fp.div (f : FpFormat) (x y : Fp) : Fp := roundTo f (x.neg ^^ y.neg) (x.num * y.den) (x.den * y.num)

/-- A value rounded to another format: `to32` (R14). -/
def Fp.round (f : FpFormat) (x : Fp) : Fp := roundTo f x.neg x.num x.den

/-- `bits32`: the encoding of a value of format binary32, bit 31 sign, bits 30:23 exponent, bits 22:0 fraction (R14).
The significand that rounding carried to `2^24` is the next power of two. An exponent above the format's range encodes as
infinity (it never arises, R214). -/
def Fp.bits32 (x : Fp) : Word :=
  let s := if x.sig = 2 ^ 24 then 2 ^ 23 else x.sig
  let e := if x.sig = 2 ^ 24 then x.exp + 1 else x.exp
  let magnitude : Nat :=
    if s < 2 ^ 23 then s
    else if 254 < e + 150 then 255 * 2 ^ 23
    else (e + 150).toNat * 2 ^ 23 + (s - 2 ^ 23)
  BitVec.ofNat 32 ((if x.neg then 2 ^ 31 else 0) + magnitude)

/-- The format in which the product and the quotient are evaluated (R213). -/
def FpEval.format : FpEval → FpFormat
  | .binary64 => Sys2Proof.binary64
  | .binary32 => Sys2Proof.binary32

/-- A raw sample as a value: `b64(int16(raw))` or `b32(int16(raw))` (R10, R213). -/
def fpOfSample (f : FpFormat) (raw : Sample) : Fp := roundTo f (raw.toInt < 0) raw.toInt.natAbs 1

/-- A sensitivity given in thousandths of its unit as a value of a format: the nearest value to the decimal (R14, R211). -/
def fpOfMilli (f : FpFormat) (s : Nat) : Fp := roundTo f false s 1000

/-- `Scale(raw, S)`: the product, the quotient by 1000, and one rounding to binary32 (R213). `S` is given in thousandths
of a milli-unit per LSB, so that every entry of R211 and R212 is a whole number. -/
def scale (m : FpEval) (raw : Sample) (s : Nat) : Word :=
  let f := m.format
  let p := Fp.mul f (fpOfSample f raw) (fpOfMilli f s)
  let q := Fp.div f p (roundTo f false 1000 1)
  (q.round Sys2Proof.binary32).bits32

/-- `SENS_XL[m][c]` in thousandths of a mg/LSB; `extended` is `m = 1`, the code is the value of a 2-bit field (R211). -/
def sensXl (extended : Bool) (c : Byte) : Nat :=
  match extended, c.toNat with
  | _, 0 => 61
  | false, 1 => 488
  | true, 1 => 61
  | _, 2 => 122
  | _, _ => 244

/-- `SENS_G(flag, c)` in thousandths of a mdps/LSB (R212). -/
def sensG (flag : Bool) (c : Byte) : Nat :=
  match flag, c.toNat with
  | true, _ => 4375
  | false, 0 => 8750
  | false, 1 => 17500
  | false, 2 => 35000
  | false, _ => 70000

/-- Sample assembly: the high byte above the low byte (R59, R230). -/
def assemble (lo hi : Byte) : Sample := hi ++ lo

end Sys2Proof
end

