-- ==== Sys2Proof/Machine/Operands.lean ====
section
/-! DEFINITION. Operand forms: each class of 30_encoding.md R82 as a function from the 24 operand bits to the setting
they name, or none where the value is outside the class; the numbers by which getters report settings (R83, R84); and
the code tables of the range fields (R98, R100). -/

namespace Sys2Proof

/-! ### Settings as numbers (R83, R84) -/

/-- A range in g (R83). -/
def XlRange.g : XlRange → Nat
  | .g2 => 2
  | .g4 => 4
  | .g8 => 8
  | .g16 => 16

/-- A range in dps (R83). -/
def GRange.dps : GRange → Nat
  | .dps125 => 125
  | .dps250 => 250
  | .dps500 => 500
  | .dps1000 => 1000
  | .dps2000 => 2000

/-- A rate in deci-hertz (R84). -/
def XlRate.dHz : XlRate → Nat
  | .off => 0
  | .hz1_6 => 16
  | .hz12_5 => 125
  | .hz26 => 260
  | .hz52 => 520
  | .hz104 => 1040
  | .hz208 => 2080
  | .hz416 => 4160
  | .hz833 => 8330
  | .hz1660 => 16600
  | .hz3330 => 33300
  | .hz6660 => 66600

/-- A gyroscope rate in deci-hertz (R84). -/
def GRate.dHz : GRate → Nat
  | .off => 0
  | .hz12_5 => 125
  | .hz26 => 260
  | .hz52 => 520
  | .hz104 => 1040
  | .hz208 => 2080
  | .hz416 => 4160
  | .hz833 => 8330
  | .hz1660 => 16600
  | .hz3330 => 33300
  | .hz6660 => 66600

/-- An axis as its operand value (R82). -/
def Axis.index : Axis → Nat
  | .x => 0
  | .y => 1
  | .z => 2

/-- A number as a host word, zero-extended (R83). -/
def word (n : Nat) : Word := BitVec.ofNat 32 n

/-- A boolean as a host word, 0 or 1. -/
def boolWord (b : Bool) : Word := if b then 1 else 0

/-- A byte as a host word, zero-extended: `zext_32` (R10). -/
def byteWord (b : Byte) : Word := b.setWidth 32

/-! ### Operand classes (R82) -/

/-- Class NONE: only 0. -/
def asNone (a : Operand) : Option Unit := if a.toNat = 0 then some () else none

/-- Class BOOL: 0 false, 1 true. -/
def asBool (a : Operand) : Option Bool := [false, true].find? fun b => b.toNat == a.toNat

/-- Class AXIS. -/
def asAxis (a : Operand) : Option Axis := [Axis.x, .y, .z].find? fun v => v.index == a.toNat

/-- Class XL_RANGE. -/
def asXlRange (a : Operand) : Option XlRange := [XlRange.g2, .g4, .g8, .g16].find? fun v => v.g == a.toNat

/-- Class G_RANGE. -/
def asGRange (a : Operand) : Option GRange :=
  [GRange.dps125, .dps250, .dps500, .dps1000, .dps2000].find? fun v => v.dps == a.toNat

/-- Class XL_ODR. -/
def asXlRate (a : Operand) : Option XlRate := XlRate.all.find? fun v => v.dHz == a.toNat

/-- Class G_ODR. -/
def asGRate (a : Operand) : Option GRate := GRate.all.find? fun v => v.dHz == a.toNat

/-! ### Range codes (R98, R100) -/

/-- `ENC_XL_FS` (R98). -/
def encXlFs : XlRange → Byte
  | .g2 => 0
  | .g16 => 1
  | .g4 => 2
  | .g8 => 3

/-- `DEC_XL_FS[m][c]`, `extended` being `m = 1`; the code is the value of a 2-bit field (R98). -/
def decXlFs (extended : Bool) (c : Byte) : XlRange :=
  match extended, c.toNat with
  | _, 0 => .g2
  | false, 1 => .g16
  | true, 1 => .g2
  | _, 2 => .g4
  | _, _ => .g8

/-- The gyroscope range encoding: the flag `F_G_FS125` and the code `F_G_FS` (R100). -/
def encGFs : GRange → Byte × Byte
  | .dps125 => (1, 0)
  | .dps250 => (0, 0)
  | .dps500 => (0, 1)
  | .dps1000 => (0, 2)
  | .dps2000 => (0, 3)

/-- The gyroscope range decoding, from the flag and the 2-bit code (R100). -/
def decGFs (flag : Bool) (c : Byte) : GRange :=
  match flag, c.toNat with
  | true, _ => .dps125
  | false, 0 => .dps250
  | false, 1 => .dps500
  | false, 2 => .dps1000
  | false, _ => .dps2000

end Sys2Proof
end

