-- ==== Sys2Proof/Machine/Memory.lean ====
section
/-! DEFINITION. The device's register file (20_memory.md R58): 256 byte registers, kept as a list of (address, byte)
pairs in one canonical form: addresses strictly rising, no entry equal to what an unlisted address reads as. -/

namespace Sys2Proof.Machine.Memory

/-- What an address that no write has touched reads as: the device's start state. The spec makes the start state an input
of the run (R302) and gives one example, the ST LSM6DSO family's (R38): 0x04 in the common control register at 0x12,
0x00 in the others. That example is the start state of an empty list (PRESUMED, log 2); any other start state is a list
that says where it differs. -/
def unlisted (a : Nat) : Byte := if a = 0x12 then 0x04 else 0x00

/-- The byte of a register. -/
def read : List Host.Cell → Nat → Byte
  | [], a => unlisted a
  | (x, y) :: m, a => if x = a then y else read m a

/-- The register file after one byte is written, in canonical form. -/
def write : List Host.Cell → Nat → Byte → List Host.Cell
  | [], a, b => if b = unlisted a then [] else [(a, b)]
  | (x, y) :: m, a, b =>
    if a < x then (if b = unlisted a then (x, y) :: m else (a, b) :: (x, y) :: m)
    else if a = x then (if b = unlisted a then m else (a, b) :: m)
    else (x, y) :: write m a b

/-- The canonical form: addresses strictly rising and below 256 (R58), no entry that an unlisted address would read as. -/
abbrev wf (m : List Host.Cell) : Prop :=
  m.Pairwise (fun c d => c.1 < d.1) ∧ ∀ c ∈ m, c.1 < 256 ∧ c.2 ≠ unlisted c.1

end Sys2Proof.Machine.Memory
end

