-- ==== Sys2Proof/Machine/State.lean ====
section
/-! DEFINITION. The state as plain data: the engine's eight items (10_state.md R21 to R27), the command in progress
(R29, 20_memory.md R54), the device behind the transport port (R35, R53), the configuration (00_scope.md R7) and the
inputs of the run. -/

namespace Sys2Proof.Machine

/-! ### The transport port (R54 to R57) -/

/-- The three transactions the engine issues: `readOneByte`, `readBurst` of two bytes, `writeOneByte`. The fourth
primitive of R54, `writeBurst`, it never issues (R57), so no request can hold one. -/
inductive TxOp where
  | readOne (a : Byte)
  | readBurst (a : Byte)
  | writeOne (a v : Byte)
deriving DecidableEq, Repr

/-- A request on the transport port: the device address every request carries (R54) and the transaction. -/
structure Request where
  dev : BitVec 7
  op  : TxOp
deriving DecidableEq, Repr

/-- What the device decides freely at one transaction (R53; 93_implementation_defined.md U2 to U5): the ok bit, the bytes a
data or status register returns, and whether the byte of a failed write landed. A slot the transaction has no use for is
not looked at. -/
structure Answer where
  ok     : Bool
  b0     : Byte
  b1     : Byte
  landed : Bool
deriving DecidableEq, Repr

/-- What the engine receives from one transaction: the ok bit and the bytes read (R55 to R57). -/
structure Reply where
  ok : Bool
  lo : Byte
  hi : Byte
deriving DecidableEq, Repr

/-! ### The inputs of a run -/

/-- An event from outside the engine. -/
inductive Input where
  /-- The device answers the outstanding transaction (R53). -/
  | answer (a : Answer)
  /-- The host reads `width` bits at a byte offset (R50, R52). -/
  | hostRead (width : Nat) (off : Word)
  /-- The host writes `width` bits at a byte offset (R50, R51). -/
  | hostWrite (width : Nat) (off v : Word)
  /-- Engine reset (R300, R303); `landed` is the draw for a write in flight. -/
  | engineReset (landed : Bool)
  /-- Some other agent, or the device itself, puts a byte in a device register (R310, R317; U7, U19). -/
  | deviceWrite (a v : Byte)
deriving DecidableEq, Repr

/-! ### Why a step can stop -/

/-- Faults: there are none. The engine raises no exception or trap; every error is a status code in `RES` (R270), so no
step of the model stops with a fault. -/
inductive Fault where
deriving DecidableEq, Repr

/-- Refusals. -/
inductive Refusal where
  /-- A command without a meaning yet; raised by no arm of `exec`. Safe: the model stops. -/
  | notModelled (mnemonic : String)
  /-- Raised by `step` for a configuration that fails R97: "a model refuses a `Cfg` that fails any of these" (U11). Safe. -/
  | illFormedCfg
  /-- Raised by `step` for a host access that is not 32 bits wide or not at a multiple of 4: "a model refuses it" (R50, U1).
  Safe. -/
  | unsupportedHostAccess (width : Nat) (off : Word)
deriving DecidableEq, Repr

/-! ### The state -/

/-- The machine. -/
structure State where
  /-- `CMD` (R21). -/
  cmd        : Word
  /-- `RES[3:0]`; bits 31:4 are hardwired 0 (R22). -/
  res        : BitVec 4
  /-- `DATA` (R23). -/
  data       : Word
  /-- `BUSY` (R24). -/
  busy       : Bool
  /-- `READY` (R25). -/
  ready      : Bool
  /-- `CNT_ALLONES` (R26), in 32 bits whatever `CNT_WIDTH` is. -/
  cntAllOnes : Word
  /-- `CNT_OTHER` (R27), in 32 bits whatever `CNT_WIDTH` is. -/
  cntOther   : Word
  /-- The outstanding transaction (R54). -/
  pending    : Option Request
  /-- The temporaries of the command in progress (R29): what its finished transactions returned, oldest first. -/
  temps      : List Reply
  /-- The device's registers (R53 items 2 and 3, R58). -/
  regs       : List Host.Cell
  /-- The device's identity byte (R53 item 4). -/
  identity   : Byte
  /-- The configuration (R7). No step changes it. -/
  cfg        : Cfg
  /-- The events still to come, in order (the model's own). -/
  inputs     : List Input
  /-- The requests issued for the command last started, oldest first (the model's own: an observation of the port). -/
  tx         : List Request
  /-- What the last host read returned (the model's own: an observation of the host port). -/
  hostReply  : Option Word
deriving DecidableEq, Repr

/-- The machine right after reset: every engine item 0 (R300), no transaction issued (R301), the default configuration,
the example device of R38, and no input yet. -/
def State.reset : State where
  cmd := 0
  res := 0
  data := 0
  busy := false
  ready := false
  cntAllOnes := 0
  cntOther := 0
  pending := none
  temps := []
  regs := []
  identity := 0x6C
  cfg := Cfg.default
  inputs := []
  tx := []
  hostReply := none

end Sys2Proof.Machine
end

