-- ==== Sys2Proof/Machine/Ops.lean ====
section
/-! DEFINITION. The named operations: reads and writes of the device (20_memory.md R53), the transport port (R54 to R57),
the state updates, completion (00_scope.md R13, 60_exceptions.md R278), commands as programs of transactions with their
helpers (20_memory.md R63 to R65, 44_raw_sample.md R232), and dispatch (30_encoding.md R89). -/

namespace Sys2Proof.Machine

/-! ### State updates -/

namespace State

/-- A command word is accepted (R51). -/
def accept (w : Word) (s : State) : State := { s with cmd := w, busy := true }

/-- Nothing of an earlier command is left: no transaction outstanding, no temporaries, no request issued yet (R29). -/
def fresh (s : State) : State := { s with pending := none, temps := [], tx := [] }

/-- Completion, by `raise` or by `complete` (R13, R278): the status and the data word are written and the engine becomes
idle, in one step. This is the engine's only "trap entry": it saves nothing and transfers no control. -/
def finish (st : Status) (d : Word) (s : State) : State :=
  { s with res := st.code, data := d, busy := false, pending := none, temps := [] }

/-- `x[READY] <- b` (R25). -/
def setReady (b : Bool) (s : State) : State := { s with ready := b }

/-- The next input has been taken. -/
def drop (s : State) : State := { s with inputs := s.inputs.tail }

/-- The host port returns a word. -/
def deliver (w : Word) (s : State) : State := { s with hostReply := some w }

/-- A byte is put in a device register by someone else than the engine (R310, U7, U19). -/
def deviceWrite (a v : Byte) (s : State) : State := { s with regs := Memory.write s.regs a.toNat v }

end State

/-! ### The error counters (R26, R27, R232) -/

/-- The two error counters. -/
inductive Counter where
  | allOnes | other
deriving DecidableEq, Repr

/-- The greatest value of a counter, `2^CNT_WIDTH - 1`, for a width of 1 to 32 (R26, R254). -/
def cntMax (c : Cfg) : Word := BitVec.ofNat 32 (2 ^ c.cntWidth - 1)

/-- `sat_inc(v)` (R232). -/
def satInc (c : Cfg) (v : Word) : Word := if v = cntMax c then v else v + 1

/-- A counter is incremented, saturating (R26, R232). -/
def State.bump (k : Counter) (s : State) : State :=
  match k with
  | .allOnes => { s with cntAllOnes := satInc s.cfg s.cntAllOnes }
  | .other => { s with cntOther := satInc s.cfg s.cntOther }

/-! ### The device (R53) -/

/-- The byte a successful single read of register `a` returns (R53 items 2, 4 and 5): the identity byte, a draw for a data or
status register, and otherwise the byte held. -/
def State.devByte (s : State) (a draw : Byte) : Byte :=
  if a = s.cfg.regWhoAmI then s.identity
  else if s.cfg.drawAddrs.contains a then draw
  else Memory.read s.regs a.toNat

/-- The device's register auto-increment (R36, R101). -/
def State.autoInc (s : State) : Bool :=
  s.cfg.fIfInc.getBool (Memory.read s.regs s.cfg.fIfInc.reg.toNat)

/-- What the engine receives when the device answers a transaction (R53, R55 to R57). With auto-increment the second byte
of a burst is that of the next register, in 8-bit address arithmetic; without it, it is a draw (R56, U4). -/
def State.reply (s : State) (op : TxOp) (a : Answer) : Reply :=
  match op with
  | .readOne r => ⟨a.ok, s.devByte r a.b0, 0⟩
  | .readBurst r => ⟨a.ok, s.devByte r a.b0, if s.autoInc then s.devByte (r + 1) a.b1 else a.b1⟩
  | .writeOne _ _ => ⟨a.ok, 0, 0⟩

/-- The device's registers after a transaction (R53 item 3): a successful write leaves its byte; a failed one leaves the
old byte or the new one, as the answer's draw says. -/
def State.regsAfter (s : State) (op : TxOp) (ok landed : Bool) : List Host.Cell :=
  match op with
  | .writeOne r v => if ok || landed then Memory.write s.regs r.toNat v else s.regs
  | .readOne _ | .readBurst _ => s.regs

/-- A request is put on the transport port, with the device address (R54). -/
def State.issue (op : TxOp) (s : State) : State :=
  { s with pending := some ⟨s.cfg.devAddr, op⟩, tx := s.tx ++ [⟨s.cfg.devAddr, op⟩] }

/-- The device has answered the outstanding transaction: the answer is taken from the inputs, the device changes, and the
engine keeps what it received. -/
def State.answered (op : TxOp) (a : Answer) (s : State) : State :=
  { s with
    regs := s.regsAfter op a.ok a.landed
    pending := none
    temps := s.temps ++ [s.reply op a]
    inputs := s.inputs.tail }

/-- A whole transaction: the request goes out and the device answers it. -/
def State.transact (op : TxOp) (a : Answer) (s : State) : State := (s.issue op).answered op a

/-- Engine reset (R300, R303): every item of the engine at its reset value, the command in progress abandoned without a
completion, and the register of a write in flight left with its old or its new byte. The device and the configuration
are not reset (R302). -/
def State.engineReset (landed : Bool) (s : State) : State :=
  { s with
    cmd := 0, res := 0, data := 0, busy := false, ready := false, cntAllOnes := 0, cntOther := 0
    pending := none, temps := [], tx := []
    regs := match s.pending with
      | some q => s.regsAfter q.op false landed
      | none => s.regs }

/-! ### Commands as programs of transactions -/

/-- The rule of a command after dispatch, as its pseudocode gives it: steps of the engine between transactions, one
transaction at a time (R66), ended by one completion (R13). -/
inductive Prog where
  /-- `raise` or `complete` (R13). -/
  | finish (st : Status) (d : Word)
  /-- `x[READY] <- b`, then go on. -/
  | setReady (b : Bool) (next : Prog)
  /-- `sat_inc` of a counter, then go on (R232). -/
  | bump (k : Counter) (next : Prog)
  /-- One transaction; what follows depends on what the device answered. -/
  | xfer (op : TxOp) (next : Reply → Prog)

/-- Run a program against the inputs that stand next: it goes on as long as the next input answers its outstanding
transaction, and otherwise waits, `BUSY` staying 1 (R54, R319). -/
def Prog.run : Prog → State → State
  | .finish st d, s => s.finish st d
  | .setReady b p, s => p.run (s.setReady b)
  | .bump k p, s => p.run (s.bump k)
  | .xfer op next, s =>
    match s.inputs with
    | .answer a :: _ => (next (s.reply op a)).run (s.transact op a)
    | _ => s.issue op

/-- What is left of a program after its first transactions returned the given replies. The engine's own steps before the
last of these transactions were taken when it was issued. -/
def Prog.after : Prog → List Reply → Prog
  | p, [] => p
  | .finish st d, _ :: _ => .finish st d
  | .setReady _ p, r :: rs => p.after (r :: rs)
  | .bump _ p, r :: rs => p.after (r :: rs)
  | .xfer _ next, r :: rs => (next r).after rs

/-- `complete(d)` (R13). -/
def complete (d : Word) : Prog := .finish .ok d

/-- `raise E()`: data 0 (R13). -/
def raise (st : Status) : Prog := .finish st 0

/-- `ReadReg(a)` (R63). -/
def readReg (a : Byte) (k : Byte → Prog) : Prog :=
  .xfer (.readOne a) fun r => if r.ok then k r.lo else raise .errTransport

/-- `WriteReg(a, b)` (R63). -/
def writeReg (a b : Byte) (k : Prog) : Prog :=
  .xfer (.writeOne a b) fun r => if r.ok then k else raise .errTransport

/-- `ReadField(F)` (R64). -/
def readField (f : Field) (k : Byte → Prog) : Prog := readReg f.reg fun b => k (f.get b)

/-- `ReadBool(F)` (R64). -/
def readBool (f : Field) (k : Bool → Prog) : Prog := readReg f.reg fun b => k (f.getBool b)

/-- The byte an update writes back: each field put in turn (R65). -/
def putFields (b : Byte) (fs : List (Field × Byte)) : Byte := fs.foldl (fun b fv => fv.1.put b fv.2) b

/-- `UpdateFields(r, [(F1, v1), ...])`: one read and one write, the write issued even if it changes nothing (R65). -/
def updateFields (r : Byte) (fs : List (Field × Byte)) (k : Prog) : Prog :=
  readReg r fun b => writeReg r (putFields b fs) k

/-- `WriteBool(F, v)` (R65). -/
def writeBool (f : Field) (v : Bool) (k : Prog) : Prog := updateFields f.reg [(f, f.ofBool v)] k

/-- The register address of an axis's low byte: `BASE + 2*axis` (R104, R231). -/
def sampleAddr (base : Byte) (ax : Axis) : Byte := base + BitVec.ofNat 8 (2 * ax.index)

/-- `RawStage(BASE, axis)` (R232). -/
def rawStage (base : Byte) (ax : Axis) (k : Sample → Prog) : Prog :=
  .xfer (.readBurst (sampleAddr base ax)) fun r =>
    if r.ok then
      if r.lo = 0xFF ∧ r.hi = 0xFF then .bump .allOnes (k (assemble r.lo r.hi))
      else k (assemble r.lo r.hi)
    else .bump .other (raise .errTransport)

/-! ### Dispatch (R89) -/

/-- The checks of dispatch after the opcode's, in their fixed order (R89, R90), then the command's rule: an operand outside
its class ends with `ERR_INVALID`; a command that needs `READY` ends with `ERR_NOT_READY` where it is 0; neither issues a
transaction. -/
def launch {α : Type} (operand : Option α) (needsReady : Bool) (rule : α → Prog) (s : State) :
    Host.Outcome State Fault Refusal :=
  match operand with
  | none => .next (s.fresh.finish .errInvalid 0)
  | some v =>
    if needsReady && !s.ready then .next (s.fresh.finish .errNotReady 0)
    else .next ((rule v).run s.fresh)

/-- The rule of a command with its operand, for a command that is already past dispatch. -/
def onOperand {α : Type} (operand : Option α) (rule : α → Prog) : Prog :=
  match operand with
  | none => raise .errInvalid
  | some v => rule v

end Sys2Proof.Machine
end

