-- ==== Sys2Proof/Machine/Accel.lean ====
section
/-! DEFINITION. The accelerometer codec commands (40_codec_accel.md R130 to R139): for each, the program of its rule and
its meaning, dispatch followed by that program. -/

namespace Sys2Proof.Machine

/-- The range a request for `v` writes, from the mode field read: 16g in extended mode becomes 8g (R130). -/
def rangePolicy (m : Byte) (v : XlRange) : XlRange := if v = .g16 ∧ m = 1 then .g8 else v

/-- The rate a request for `v` writes, from the high-performance mode read: 1.6 Hz becomes 12.5 Hz where it is disabled
(R132). -/
def ratePolicy (hp : Bool) (v : XlRate) : XlRate := if v = .hz1_6 ∧ hp = false then .hz12_5 else v

/-- R130 after dispatch; the mode is read only for 16g. -/
def setXlRangeProg (c : Cfg) (v : XlRange) : Prog :=
  let put (v : XlRange) : Prog := updateFields c.regCtrlXl [(c.fXlFs, encXlFs v)] (complete 0)
  if v = .g16 then readField c.fXlFsmode fun m => put (rangePolicy m v) else put v

/-- `SET_XL_RANGE` (R130). -/
def execSetXlRange (arg : Operand) (s : State) : Host.Outcome State Fault Refusal :=
  launch (asXlRange arg) true (setXlRangeProg s.cfg) s

/-- R131 after dispatch. -/
def getXlRangeProg (c : Cfg) : Prog :=
  readField c.fXlFs fun code => readField c.fXlFsmode fun m => complete (word (decXlFs (m == 1) code).g)

/-- `GET_XL_RANGE` (R131). -/
def execGetXlRange (arg : Operand) (s : State) : Host.Outcome State Fault Refusal :=
  launch (asNone arg) true (fun _ => getXlRangeProg s.cfg) s

/-- R132 after dispatch; the high-performance mode is read only for 1.6 Hz. -/
def setXlOdrProg (c : Cfg) (v : XlRate) : Prog :=
  let put (v : XlRate) : Prog := updateFields c.regCtrlXl [(c.fXlOdr, c.odrCodeXl.code v)] (complete 0)
  if v = .hz1_6 then readBool c.fXlHp fun hp => put (ratePolicy hp v) else put v

/-- `SET_XL_ODR` (R132). -/
def execSetXlOdr (arg : Operand) (s : State) : Host.Outcome State Fault Refusal :=
  launch (asXlRate arg) true (setXlOdrProg s.cfg) s

/-- R133 after dispatch; a code with no meaning ends with `ERR_BAD_CODE`. -/
def getXlOdrProg (c : Cfg) : Prog :=
  readField c.fXlOdr fun code =>
    match c.odrCodeXl.rate code with
    | some v => complete (word v.dHz)
    | none => raise .errBadCode

/-- `GET_XL_ODR` (R133). -/
def execGetXlOdr (arg : Operand) (s : State) : Host.Outcome State Fault Refusal :=
  launch (asNone arg) true (fun _ => getXlOdrProg s.cfg) s

/-- R134 after dispatch. -/
def setXlHpProg (c : Cfg) (v : Bool) : Prog := writeBool c.fXlHp v (complete 0)

/-- `SET_XL_HP` (R134). -/
def execSetXlHp (arg : Operand) (s : State) : Host.Outcome State Fault Refusal :=
  launch (asBool arg) true (setXlHpProg s.cfg) s

/-- R135 after dispatch. -/
def getXlHpProg (c : Cfg) : Prog := readBool c.fXlHp fun v => complete (boolWord v)

/-- `GET_XL_HP` (R135). -/
def execGetXlHp (arg : Operand) (s : State) : Host.Outcome State Fault Refusal :=
  launch (asNone arg) true (fun _ => getXlHpProg s.cfg) s

/-- R136 after dispatch; enabling a sensor that is on writes nothing. -/
def setXlEnProg (c : Cfg) (v : Bool) : Prog :=
  if v then
    readReg c.regCtrlXl fun b =>
      if c.fXlOdr.get b = c.odrCodeXl.code .off then
        writeReg c.regCtrlXl (c.fXlOdr.put b (c.odrCodeXl.code c.enableOdrXl)) (complete 0)
      else complete 0
  else updateFields c.regCtrlXl [(c.fXlOdr, c.odrCodeXl.code .off)] (complete 0)

/-- `SET_XL_EN` (R136). -/
def execSetXlEn (arg : Operand) (s : State) : Host.Outcome State Fault Refusal :=
  launch (asBool arg) true (setXlEnProg s.cfg) s

/-- R137 after dispatch. -/
def getXlEnProg (c : Cfg) : Prog :=
  readField c.fXlOdr fun code => complete (boolWord (code != c.odrCodeXl.code .off))

/-- `GET_XL_EN` (R137). -/
def execGetXlEn (arg : Operand) (s : State) : Host.Outcome State Fault Refusal :=
  launch (asNone arg) true (fun _ => getXlEnProg s.cfg) s

/-- R138 after dispatch. -/
def setXlFsmodeProg (c : Cfg) (v : Bool) : Prog := writeBool c.fXlFsmode v (complete 0)

/-- `SET_XL_FSMODE` (R138). -/
def execSetXlFsmode (arg : Operand) (s : State) : Host.Outcome State Fault Refusal :=
  launch (asBool arg) true (setXlFsmodeProg s.cfg) s

/-- R139 after dispatch. -/
def getXlFsmodeProg (c : Cfg) : Prog := readBool c.fXlFsmode fun v => complete (boolWord v)

/-- `GET_XL_FSMODE` (R139). -/
def execGetXlFsmode (arg : Operand) (s : State) : Host.Outcome State Fault Refusal :=
  launch (asNone arg) true (fun _ => getXlFsmodeProg s.cfg) s

end Sys2Proof.Machine
end

