-- ==== Sys2Proof/Machine/Common.lean ====
section
/-! DEFINITION. The global-field codec commands (42_codec_common.md R190 to R193). -/

namespace Sys2Proof.Machine

/-- R190 after dispatch. -/
def setBduProg (c : Cfg) (v : Bool) : Prog := writeBool c.fBdu v (complete 0)

/-- `SET_BDU` (R190). -/
def execSetBdu (arg : Operand) (s : State) : Host.Outcome State Fault Refusal :=
  launch (asBool arg) true (setBduProg s.cfg) s

/-- R191 after dispatch. -/
def getBduProg (c : Cfg) : Prog := readBool c.fBdu fun v => complete (boolWord v)

/-- `GET_BDU` (R191). -/
def execGetBdu (arg : Operand) (s : State) : Host.Outcome State Fault Refusal :=
  launch (asNone arg) true (fun _ => getBduProg s.cfg) s

/-- R192 after dispatch; the bit has no effect on any other register (R53, log 17). -/
def setEmbProg (c : Cfg) (v : Bool) : Prog := writeBool c.fEmb v (complete 0)

/-- `SET_EMB` (R192). -/
def execSetEmb (arg : Operand) (s : State) : Host.Outcome State Fault Refusal :=
  launch (asBool arg) true (setEmbProg s.cfg) s

/-- R193 after dispatch. -/
def getEmbProg (c : Cfg) : Prog := readBool c.fEmb fun v => complete (boolWord v)

/-- `GET_EMB` (R193). -/
def execGetEmb (arg : Operand) (s : State) : Host.Outcome State Fault Refusal :=
  launch (asNone arg) true (fun _ => getEmbProg s.cfg) s

end Sys2Proof.Machine
end

