-- ==== Sys2Proof/Machine/Gyro.lean ====
section
/-! DEFINITION. The gyroscope codec commands (41_codec_gyro.md R160 to R167). -/

namespace Sys2Proof.Machine

/-- R160 after dispatch: the code and the flag are written together. -/
def setGRangeProg (c : Cfg) (v : GRange) : Prog :=
  updateFields c.regCtrlG [(c.fGFs, (encGFs v).2), (c.fGFs125, (encGFs v).1)] (complete 0)

/-- `SET_G_RANGE` (R160). -/
def execSetGRange (arg : Operand) (s : State) : Host.Outcome State Fault Refusal :=
  launch (asGRange arg) true (setGRangeProg s.cfg) s

/-- R161 after dispatch. -/
def getGRangeProg (c : Cfg) : Prog :=
  readReg c.regCtrlG fun b => complete (word (decGFs (c.fGFs125.get b == 1) (c.fGFs.get b)).dps)

/-- `GET_G_RANGE` (R161). -/
def execGetGRange (arg : Operand) (s : State) : Host.Outcome State Fault Refusal :=
  launch (asNone arg) true (fun _ => getGRangeProg s.cfg) s

/-- R162 after dispatch. -/
def setGOdrProg (c : Cfg) (v : GRate) : Prog :=
  updateFields c.regCtrlG [(c.fGOdr, c.odrCodeG.code v)] (complete 0)

/-- `SET_G_ODR` (R162). -/
def execSetGOdr (arg : Operand) (s : State) : Host.Outcome State Fault Refusal :=
  launch (asGRate arg) true (setGOdrProg s.cfg) s

/-- R163 after dispatch; a code with no meaning ends with `ERR_BAD_CODE`. -/
def getGOdrProg (c : Cfg) : Prog :=
  readField c.fGOdr fun code =>
    match c.odrCodeG.rate code with
    | some v => complete (word v.dHz)
    | none => raise .errBadCode

/-- `GET_G_ODR` (R163). -/
def execGetGOdr (arg : Operand) (s : State) : Host.Outcome State Fault Refusal :=
  launch (asNone arg) true (fun _ => getGOdrProg s.cfg) s

/-- R164 after dispatch. -/
def setGHpProg (c : Cfg) (v : Bool) : Prog := writeBool c.fGHp v (complete 0)

/-- `SET_G_HP` (R164). -/
def execSetGHp (arg : Operand) (s : State) : Host.Outcome State Fault Refusal :=
  launch (asBool arg) true (setGHpProg s.cfg) s

/-- R165 after dispatch. -/
def getGHpProg (c : Cfg) : Prog := readBool c.fGHp fun v => complete (boolWord v)

/-- `GET_G_HP` (R165). -/
def execGetGHp (arg : Operand) (s : State) : Host.Outcome State Fault Refusal :=
  launch (asNone arg) true (fun _ => getGHpProg s.cfg) s

/-- R166 after dispatch; enabling a sensor that is on writes nothing. -/
def setGEnProg (c : Cfg) (v : Bool) : Prog :=
  if v then
    readReg c.regCtrlG fun b =>
      if c.fGOdr.get b = c.odrCodeG.code .off then
        writeReg c.regCtrlG (c.fGOdr.put b (c.odrCodeG.code c.enableOdrG)) (complete 0)
      else complete 0
  else updateFields c.regCtrlG [(c.fGOdr, c.odrCodeG.code .off)] (complete 0)

/-- `SET_G_EN` (R166). -/
def execSetGEn (arg : Operand) (s : State) : Host.Outcome State Fault Refusal :=
  launch (asBool arg) true (setGEnProg s.cfg) s

/-- R167 after dispatch. -/
def getGEnProg (c : Cfg) : Prog :=
  readField c.fGOdr fun code => complete (boolWord (code != c.odrCodeG.code .off))

/-- `GET_G_EN` (R167). -/
def execGetGEn (arg : Operand) (s : State) : Host.Outcome State Fault Refusal :=
  launch (asNone arg) true (fun _ => getGEnProg s.cfg) s

end Sys2Proof.Machine
end

