-- ==== Sys2Proof/Machine/Sample.lean ====
section
/-! DEFINITION. The sample commands: raw (44_raw_sample.md R233, R234) and scaled (43_scaling.md R215, R216). -/

namespace Sys2Proof.Machine

/-- R215 after dispatch: the sample first, then the configuration, read afresh (R210). -/
def readXlProg (c : Cfg) (ax : Axis) : Prog :=
  rawStage c.outXlBase ax fun raw =>
    readField c.fXlFs fun code =>
      readField c.fXlFsmode fun m =>
        complete (scale c.fpEval raw (sensXl (m == 1) code))

/-- `READ_XL` (R215). -/
def execReadXl (arg : Operand) (s : State) : Host.Outcome State Fault Refusal :=
  launch (asAxis arg) true (readXlProg s.cfg) s

/-- R216 after dispatch. -/
def readGProg (c : Cfg) (ax : Axis) : Prog :=
  rawStage c.outGBase ax fun raw =>
    readReg c.regCtrlG fun b =>
      complete (scale c.fpEval raw (sensG (c.fGFs125.get b == 1) (c.fGFs.get b)))

/-- `READ_G` (R216). -/
def execReadG (arg : Operand) (s : State) : Host.Outcome State Fault Refusal :=
  launch (asAxis arg) true (readGProg s.cfg) s

/-- R233 after dispatch. -/
def readRawXlProg (c : Cfg) (ax : Axis) : Prog :=
  rawStage c.outXlBase ax fun raw => complete (raw.signExtend 32)

/-- `READ_RAW_XL` (R233). -/
def execReadRawXl (arg : Operand) (s : State) : Host.Outcome State Fault Refusal :=
  launch (asAxis arg) true (readRawXlProg s.cfg) s

/-- R234 after dispatch. -/
def readRawGProg (c : Cfg) (ax : Axis) : Prog :=
  rawStage c.outGBase ax fun raw => complete (raw.signExtend 32)

/-- `READ_RAW_G` (R234). -/
def execReadRawG (arg : Operand) (s : State) : Host.Outcome State Fault Refusal :=
  launch (asAxis arg) true (readRawGProg s.cfg) s

end Sys2Proof.Machine
end

