-- ==== Sys2Proof/Machine/System.lean ====
section
/-! DEFINITION. The system, status and counter commands (45_system.md R250 to R253). -/

namespace Sys2Proof.Machine

/-- R250 after dispatch: `READY` is cleared first, the identity is compared before anything is written. -/
def initProg (c : Cfg) : Prog :=
  .setReady false <|
    readReg c.regWhoAmI fun id =>
      if id = c.whoAmIValue then
        updateFields c.regCtrlC [(c.fIfInc, 1)] <| .setReady true <| complete (byteWord id)
      else .finish .errIdMismatch (byteWord id)

/-- `INIT` (R250). -/
def execInit (arg : Operand) (s : State) : Host.Outcome State Fault Refusal :=
  launch (asNone arg) false (fun _ => initProg s.cfg) s

/-- R251 after dispatch. -/
def getDrdyProg (c : Cfg) : Prog := readReg c.regStatus fun b => complete (byteWord (b &&& c.drdyMask))

/-- `GET_DRDY` (R251). -/
def execGetDrdy (arg : Operand) (s : State) : Host.Outcome State Fault Refusal :=
  launch (asNone arg) true (fun _ => getDrdyProg s.cfg) s

/-- R252 after dispatch: no transaction. -/
def getAllonesProg (cnt : Word) : Prog := complete cnt

/-- `GET_ALLONES` (R252). -/
def execGetAllones (arg : Operand) (s : State) : Host.Outcome State Fault Refusal :=
  launch (asNone arg) false (fun _ => getAllonesProg s.cntAllOnes) s

/-- R253 after dispatch: no transaction. -/
def getOtherfailProg (cnt : Word) : Prog := complete cnt

/-- `GET_OTHERFAIL` (R253). -/
def execGetOtherfail (arg : Operand) (s : State) : Host.Outcome State Fault Refusal :=
  launch (asNone arg) false (fun _ => getOtherfailProg s.cntOther) s

end Sys2Proof.Machine
end

