-- ==== Sys2Proof/Machine/Dispatch.lean ====
section
/-! DEFINITION. Dispatch of a command to its meaning (30_encoding.md R89), one arm per row of the opcode table (R81). -/

namespace Sys2Proof.Machine

def exec (i : Instr) (s : State) : Host.Outcome State Fault Refusal :=
  match i with
  | .init arg => Sys2Proof.Machine.execInit arg s
  | .setXlRange arg => Sys2Proof.Machine.execSetXlRange arg s
  | .getXlRange arg => Sys2Proof.Machine.execGetXlRange arg s
  | .setXlOdr arg => Sys2Proof.Machine.execSetXlOdr arg s
  | .getXlOdr arg => Sys2Proof.Machine.execGetXlOdr arg s
  | .setXlHp arg => Sys2Proof.Machine.execSetXlHp arg s
  | .getXlHp arg => Sys2Proof.Machine.execGetXlHp arg s
  | .setXlEn arg => Sys2Proof.Machine.execSetXlEn arg s
  | .getXlEn arg => Sys2Proof.Machine.execGetXlEn arg s
  | .setXlFsmode arg => Sys2Proof.Machine.execSetXlFsmode arg s
  | .getXlFsmode arg => Sys2Proof.Machine.execGetXlFsmode arg s
  | .setGRange arg => Sys2Proof.Machine.execSetGRange arg s
  | .getGRange arg => Sys2Proof.Machine.execGetGRange arg s
  | .setGOdr arg => Sys2Proof.Machine.execSetGOdr arg s
  | .getGOdr arg => Sys2Proof.Machine.execGetGOdr arg s
  | .setGHp arg => Sys2Proof.Machine.execSetGHp arg s
  | .getGHp arg => Sys2Proof.Machine.execGetGHp arg s
  | .setGEn arg => Sys2Proof.Machine.execSetGEn arg s
  | .getGEn arg => Sys2Proof.Machine.execGetGEn arg s
  | .setBdu arg => Sys2Proof.Machine.execSetBdu arg s
  | .getBdu arg => Sys2Proof.Machine.execGetBdu arg s
  | .setEmb arg => Sys2Proof.Machine.execSetEmb arg s
  | .getEmb arg => Sys2Proof.Machine.execGetEmb arg s
  | .readXl arg => Sys2Proof.Machine.execReadXl arg s
  | .readG arg => Sys2Proof.Machine.execReadG arg s
  | .readRawXl arg => Sys2Proof.Machine.execReadRawXl arg s
  | .readRawG arg => Sys2Proof.Machine.execReadRawG arg s
  | .getDrdy arg => Sys2Proof.Machine.execGetDrdy arg s
  | .getAllones arg => Sys2Proof.Machine.execGetAllones arg s
  | .getOtherfail arg => Sys2Proof.Machine.execGetOtherfail arg s

end Sys2Proof.Machine
end

