-- ==== Sys2Proof/Machine/Events.lean ====
section
/-! DEFINITION. The events of a run: a command going on when the device answers (20_memory.md R54, R66), host accesses
(R50 to R52), engine reset (70_reset_and_hazards.md R300 to R303) and foreign writes to the device (R310). -/

namespace Sys2Proof.Machine

/-- The program of each command, past dispatch: what a command in progress goes on with. -/
def progOf (i : Instr) (s : State) : Prog :=
  match i with
  | .init a => onOperand (asNone a) fun _ => initProg s.cfg
  | .setXlRange a => onOperand (asXlRange a) (setXlRangeProg s.cfg)
  | .getXlRange a => onOperand (asNone a) fun _ => getXlRangeProg s.cfg
  | .setXlOdr a => onOperand (asXlRate a) (setXlOdrProg s.cfg)
  | .getXlOdr a => onOperand (asNone a) fun _ => getXlOdrProg s.cfg
  | .setXlHp a => onOperand (asBool a) (setXlHpProg s.cfg)
  | .getXlHp a => onOperand (asNone a) fun _ => getXlHpProg s.cfg
  | .setXlEn a => onOperand (asBool a) (setXlEnProg s.cfg)
  | .getXlEn a => onOperand (asNone a) fun _ => getXlEnProg s.cfg
  | .setXlFsmode a => onOperand (asBool a) (setXlFsmodeProg s.cfg)
  | .getXlFsmode a => onOperand (asNone a) fun _ => getXlFsmodeProg s.cfg
  | .setGRange a => onOperand (asGRange a) (setGRangeProg s.cfg)
  | .getGRange a => onOperand (asNone a) fun _ => getGRangeProg s.cfg
  | .setGOdr a => onOperand (asGRate a) (setGOdrProg s.cfg)
  | .getGOdr a => onOperand (asNone a) fun _ => getGOdrProg s.cfg
  | .setGHp a => onOperand (asBool a) (setGHpProg s.cfg)
  | .getGHp a => onOperand (asNone a) fun _ => getGHpProg s.cfg
  | .setGEn a => onOperand (asBool a) (setGEnProg s.cfg)
  | .getGEn a => onOperand (asNone a) fun _ => getGEnProg s.cfg
  | .setBdu a => onOperand (asBool a) (setBduProg s.cfg)
  | .getBdu a => onOperand (asNone a) fun _ => getBduProg s.cfg
  | .setEmb a => onOperand (asBool a) (setEmbProg s.cfg)
  | .getEmb a => onOperand (asNone a) fun _ => getEmbProg s.cfg
  | .readXl a => onOperand (asAxis a) (readXlProg s.cfg)
  | .readG a => onOperand (asAxis a) (readGProg s.cfg)
  | .readRawXl a => onOperand (asAxis a) (readRawXlProg s.cfg)
  | .readRawG a => onOperand (asAxis a) (readRawGProg s.cfg)
  | .getDrdy a => onOperand (asNone a) fun _ => getDrdyProg s.cfg
  | .getAllones a => onOperand (asNone a) fun _ => getAllonesProg s.cntAllOnes
  | .getOtherfail a => onOperand (asNone a) fun _ => getOtherfailProg s.cntOther

/-- The device answers (R53, R54). The outstanding transaction takes effect and the command in `CMD` goes on where it
waited, through as many further answers as stand next. With no transaction outstanding the answer has no effect (log 6).
An undefined opcode never waits; the last line says what R87 would. -/
def resume (a : Answer) (s : State) : State :=
  match s.pending with
  | none => s.drop
  | some q =>
    match decode s.cmd with
    | .ok i => ((progOf i s).after (s.answered q.op a).temps).run (s.answered q.op a)
    | .error _ => (s.answered q.op a).finish .errIllegalOp 0

/-- A host access the spec defines: 32 bits wide, at a multiple of 4 (R50, U1). -/
def hostAccessOk (width : Nat) (off : Word) : Bool := width == 32 && off.toNat % 4 == 0

/-- What a host read returns; an offset with no register reads as 0 (R50, R52; log 7). -/
def hostLoad (s : State) (off : Word) : Word :=
  match off.toNat with
  | 0x0 => s.cmd
  | 0x4 => resWord s.res
  | 0x8 => s.data
  | 0xC => csrWord s.ready s.busy
  | _ => 0

/-- The engine starts an accepted command word: the opcode check of dispatch comes first (R89, R90). Acceptance and what the
engine does up to its first wait are one step, so a command that issues no transaction, a rejected one among them, completes
in the step that accepts it and the host never reads `BUSY = 1` for it: R24 leaves that open (DESIGN CHOICE, log 27). -/
def startCommand (run : Instr → State → Host.Outcome State Fault Refusal) (w : Word) (s : State) :
    Host.Outcome State Fault Refusal :=
  match decode w with
  | .ok i => run i (s.accept w)
  | .error _ => .next ((s.accept w).fresh.finish .errIllegalOp 0)

/-- A host write: to `CMD` while idle it starts a command, and every other one has no effect (R50, R51). -/
def hostStore (run : Instr → State → Host.Outcome State Fault Refusal) (off v : Word) (s : State) :
    Host.Outcome State Fault Refusal :=
  if off = 0 ∧ s.busy = false then startCommand run v s else .next s

/-- One event. With none to come the machine stands still: idle, or busy with a transaction that is never answered
(R301, R319, U12). A configuration that is not well formed does not run (R97, U11). -/
def stepEvent (run : Instr → State → Host.Outcome State Fault Refusal) (s : State) :
    Host.Outcome State Fault Refusal :=
  if s.cfg.wf then
    match s.inputs with
    | [] => .next s
    | .answer a :: _ => .next (resume a s)
    | .hostRead width off :: _ =>
      if hostAccessOk width off then .next (s.drop.deliver (hostLoad s off))
      else .refused (.unsupportedHostAccess width off)
    | .hostWrite width off v :: _ =>
      if hostAccessOk width off then hostStore run off v s.drop
      else .refused (.unsupportedHostAccess width off)
    | .engineReset landed :: _ => .next (s.drop.engineReset landed)
    | .deviceWrite a v :: _ => .next (s.drop.deviceWrite a v)
  else .refused .illFormedCfg

/-- A state whose next event is the host writing a command word to an idle engine: how a command reaches the engine (R32,
R51, log 10). -/
def placeCommand (w : Word) (s : State) : State :=
  { s with inputs := .hostWrite 32 0 w :: s.inputs, busy := false, pending := none, temps := [] }

end Sys2Proof.Machine
end

