-- ==== Sys2Proof/Machine/Step.lean ====
section
/-! DEFINITION. One step of the machine: the next event of the run, a command word the host writes running as `exec` says. -/

namespace Sys2Proof.Machine

/-- One step (10_state.md R20, R32; 20_memory.md R51). -/
def step (s : State) : Host.Outcome State Fault Refusal := stepEvent exec s

/-- The state whose next step runs the command word with bits `w` (30_encoding.md R91: one word of 32 bits). -/
def State.withFetchWord (s : State) (nbits w : Nat) : State :=
  placeCommand (BitVec.ofNat 32 (w % 2 ^ nbits)) s

end Sys2Proof.Machine
end

