-- ==== Sys2Proof/WellFormed.lean ====
section
/-! DEFINITION. Well-formedness of a command: its operand is in its class (30_encoding.md R82). A command that is not
well formed still decodes and runs: it ends with `ERR_INVALID` (R88). -/

namespace Sys2Proof

/-- The operand values each class accepts, in decimal, as the table of R82 lists them. -/
def OperandClass.values : OperandClass → List Nat
  | .none => [0]
  | .bool => [0, 1]
  | .axis => [0, 1, 2]
  | .xlRange => [2, 4, 8, 16]
  | .gRange => [125, 250, 500, 1000, 2000]
  | .xlOdr => [0, 16, 125, 260, 520, 1040, 2080, 4160, 8330, 16600, 33300, 66600]
  | .gOdr => [0, 125, 260, 520, 1040, 2080, 4160, 8330, 16600, 33300, 66600]

/-- An operand is in its class, compared as an unsigned 24-bit integer (R82). -/
def OperandClass.accepts (c : OperandClass) (a : Operand) : Bool := c.values.contains a.toNat

/-- A command is well formed when its operand is in its class (R82). -/
def Instr.wf (i : Instr) : Bool := i.cls.accepts i.operand

end Sys2Proof
end

