-- ==== Sys2Proof/Machine/Assembler.lean ====
section
/-! DEFINITION. The assembler syntax (30_encoding.md R92, R93): one command per line, a mnemonic and an operand written by
its class. A line is a list of characters. -/

namespace Sys2Proof.Machine

/-- The mnemonics of R81, one command each (R93). -/
def mnemonics : List (String × (Operand → Instr)) :=
  [("INIT", .init), ("SET_XL_RANGE", .setXlRange), ("GET_XL_RANGE", .getXlRange),
   ("SET_XL_ODR", .setXlOdr), ("GET_XL_ODR", .getXlOdr), ("SET_XL_HP", .setXlHp),
   ("GET_XL_HP", .getXlHp), ("SET_XL_EN", .setXlEn), ("GET_XL_EN", .getXlEn),
   ("SET_XL_FSMODE", .setXlFsmode), ("GET_XL_FSMODE", .getXlFsmode), ("SET_G_RANGE", .setGRange),
   ("GET_G_RANGE", .getGRange), ("SET_G_ODR", .setGOdr), ("GET_G_ODR", .getGOdr),
   ("SET_G_HP", .setGHp), ("GET_G_HP", .getGHp), ("SET_G_EN", .setGEn),
   ("GET_G_EN", .getGEn), ("SET_BDU", .setBdu), ("GET_BDU", .getBdu),
   ("SET_EMB", .setEmb), ("GET_EMB", .getEmb), ("READ_XL", .readXl),
   ("READ_G", .readG), ("READ_RAW_XL", .readRawXl), ("READ_RAW_G", .readRawG),
   ("GET_DRDY", .getDrdy), ("GET_ALLONES", .getAllones), ("GET_OTHERFAIL", .getOtherfail)]

/-- The command a mnemonic names. -/
def mnemonic? (m : List Char) : Option (Operand → Instr) :=
  (mnemonics.find? fun e => e.1.toList == m).map (·.2)

/-- The value of a digit in a base. -/
def digit? (base : Nat) (c : Char) : Option Nat :=
  let n :=
    if '0' ≤ c ∧ c ≤ '9' then some (c.toNat - 48)
    else if 'a' ≤ c ∧ c ≤ 'f' then some (c.toNat - 87)
    else if 'A' ≤ c ∧ c ≤ 'F' then some (c.toNat - 55)
    else none
  n.filter (· < base)

/-- A number in a base, at least one digit long. -/
def number? (base : Nat) : List Char → Option Nat
  | [] => none
  | c :: cs => (c :: cs).foldl (fun acc c => acc.bind fun n => (digit? base c).map (base * n + ·)) (some 0)

/-- The `n` of `#n`: decimal, or hexadecimal after `0x`. -/
def rawNumber? : List Char → Option Nat
  | '0' :: 'x' :: cs => number? 16 cs
  | cs => number? 10 cs

/-- A rate in Hz with at most one fractional digit, or `off`, as deci-hertz (R84, R92). -/
def rate? (cs : List Char) : Option Nat :=
  if cs == "off".toList then some 0
  else
    match cs.span (· != '.') with
    | (hz, []) => (number? 10 hz).map (10 * ·)
    | (hz, [_, d]) => (number? 10 hz).bind fun n => (digit? 10 d).map (10 * n + ·)
    | _ => none

/-- An operand written in the way of its class (R92). -/
def classText? (c : OperandClass) (cs : List Char) : Option Nat :=
  match c with
  | .none => none
  | .bool =>
    if cs == "0".toList || cs == "off".toList then some 0
    else if cs == "1".toList || cs == "on".toList then some 1 else none
  | .axis => if cs == "X".toList then some 0 else if cs == "Y".toList then some 1 else if cs == "Z".toList then some 2 else none
  | .xlRange | .gRange => number? 10 cs
  | .xlOdr | .gOdr => rate? cs

/-- The operand field of an operand: `#n` unchecked below `2^24`, any other spelling checked against the class, so that
invalid operands are written with `#` only (R92, log 19). -/
def operandText? (c : OperandClass) (cs : List Char) : Option Operand :=
  match cs with
  | '#' :: n => ((rawNumber? n).filter (· < 2 ^ 24)).map (BitVec.ofNat 24)
  | cs => ((classText? c cs).filter fun n => n < 2 ^ 24 && c.accepts (BitVec.ofNat 24 n)).map (BitVec.ofNat 24)

/-- The words of a line between blanks, `word` being the one being read, backwards. -/
def splitBlanks : List Char → List Char → List (List Char)
  | word, [] => if word.isEmpty then [] else [word.reverse]
  | word, c :: cs =>
    if c == ' ' || c == '\t' then
      (if word.isEmpty then splitBlanks [] cs else word.reverse :: splitBlanks [] cs)
    else splitBlanks (c :: word) cs

/-- The word a line assembles to, `(opcode << 24) | operand`; none for a line that is no command. A comment starts with `;`
(R92). -/
def assembleLine (line : List Char) : Option Word :=
  match splitBlanks [] (line.takeWhile (· != ';')) with
  | [m] => (mnemonic? m).bind fun i => if (i 0).cls = .none then some (encode (i 0)) else none
  | [m, o] => (mnemonic? m).bind fun i => (operandText? (i 0).cls o).map fun a => encode (i a)
  | _ => none

end Sys2Proof.Machine
end

