-- ==== Sys2Proof/Safety.lean ====
section
/-! DEFINITION. The terms in which claims are written: what a completed command leaves, what each command may change, the
transactions it issues (70_reset_and_hazards.md R320), and the invariant of the machine. -/

namespace Sys2Proof.Machine

/-! ### Completed commands -/

/-- The state `s` once a command has completed with a status code and a data word, having left the device's registers as
`regs`, issued the transactions `ops` and left the inputs `rest`. Everything else is as in `s`. -/
def State.done (s : State) (regs : List Host.Cell) (code : BitVec 4) (d : Word) (ops : List TxOp) (rest : List Input) :
    State :=
  { s with
    regs := regs, res := code, data := d, busy := false, pending := none, temps := []
    tx := ops.map fun op => ⟨s.cfg.devAddr, op⟩
    inputs := rest }

/-- The byte a device register holds. -/
def State.reg (s : State) (r : Byte) : Byte := Memory.read s.regs r.toNat

/-- The device's registers with one byte written. -/
def State.regsWith (s : State) (r v : Byte) : List Host.Cell := Memory.write s.regs r.toNat v

/-- The state right after the word of a command was accepted (R51). -/
def State.accepting (s : State) (i : Instr) : State := s.accept (encode i)

/-! ### What each command may change (R35, R272) -/

/-- The fields a command writes, all in one register (rules R130 to R193, R250); none for a getter or a read. -/
def ownFields (c : Cfg) : Instr → List Field
  | .setXlRange _ => [c.fXlFs]
  | .setXlOdr _ | .setXlEn _ => [c.fXlOdr]
  | .setXlHp _ => [c.fXlHp]
  | .setXlFsmode _ => [c.fXlFsmode]
  | .setGRange _ => [c.fGFs, c.fGFs125]
  | .setGOdr _ | .setGEn _ => [c.fGOdr]
  | .setGHp _ => [c.fGHp]
  | .setBdu _ => [c.fBdu]
  | .setEmb _ => [c.fEmb]
  | .init _ => [c.fIfInc]
  | .getXlRange _ | .getXlOdr _ | .getXlHp _ | .getXlEn _ | .getXlFsmode _ => []
  | .getGRange _ | .getGOdr _ | .getGHp _ | .getGEn _ => []
  | .getBdu _ | .getEmb _ | .readXl _ | .readG _ | .readRawXl _ | .readRawG _ => []
  | .getDrdy _ | .getAllones _ | .getOtherfail _ => []

/-- The commands that run the raw-sample stage (R232), with their sample base. -/
def sampleBase (c : Cfg) : Instr → Option Byte
  | .readXl _ | .readRawXl _ => some c.outXlBase
  | .readG _ | .readRawG _ => some c.outGBase
  | _ => none

/-! ### Transactions (R320) -/

/-- What R320 says of one transaction: its kind and its register address. -/
inductive TxShape where
  | read (a : Byte)
  | write (a : Byte)
  | burst (a : Byte)
deriving DecidableEq, Repr

/-- The shape of a transaction. -/
def TxOp.shape : TxOp → TxShape
  | .readOne a => .read a
  | .writeOne a _ => .write a
  | .readBurst a => .burst a

/-- The table of R320: the transactions of each command when every one succeeds, in issue order. -/
def txTable (s : State) : Instr → List TxShape
  | .init _ => [.read s.cfg.regWhoAmI, .read s.cfg.regCtrlC, .write s.cfg.regCtrlC]
  | .setXlRange a =>
    (if a.toNat = 16 then [.read s.cfg.regFsm] else []) ++ [.read s.cfg.regCtrlXl, .write s.cfg.regCtrlXl]
  | .getXlRange _ => [.read s.cfg.regCtrlXl, .read s.cfg.regFsm]
  | .setXlOdr a =>
    (if a.toNat = 16 then [.read s.cfg.regHpXl] else []) ++ [.read s.cfg.regCtrlXl, .write s.cfg.regCtrlXl]
  | .getXlOdr _ => [.read s.cfg.regCtrlXl]
  | .setXlHp _ => [.read s.cfg.regHpXl, .write s.cfg.regHpXl]
  | .getXlHp _ => [.read s.cfg.regHpXl]
  | .setXlEn a =>
    [.read s.cfg.regCtrlXl] ++
      (if a.toNat = 1 ∧ s.cfg.fXlOdr.get (s.reg s.cfg.regCtrlXl) ≠ s.cfg.odrCodeXl.off then []
       else [.write s.cfg.regCtrlXl])
  | .getXlEn _ => [.read s.cfg.regCtrlXl]
  | .setXlFsmode _ => [.read s.cfg.regFsm, .write s.cfg.regFsm]
  | .getXlFsmode _ => [.read s.cfg.regFsm]
  | .setGRange _ => [.read s.cfg.regCtrlG, .write s.cfg.regCtrlG]
  | .getGRange _ => [.read s.cfg.regCtrlG]
  | .setGOdr _ => [.read s.cfg.regCtrlG, .write s.cfg.regCtrlG]
  | .getGOdr _ => [.read s.cfg.regCtrlG]
  | .setGHp _ => [.read s.cfg.regHpG, .write s.cfg.regHpG]
  | .getGHp _ => [.read s.cfg.regHpG]
  | .setGEn a =>
    [.read s.cfg.regCtrlG] ++
      (if a.toNat = 1 ∧ s.cfg.fGOdr.get (s.reg s.cfg.regCtrlG) ≠ s.cfg.odrCodeG.off then []
       else [.write s.cfg.regCtrlG])
  | .getGEn _ => [.read s.cfg.regCtrlG]
  | .setBdu _ => [.read s.cfg.regCtrlC, .write s.cfg.regCtrlC]
  | .getBdu _ => [.read s.cfg.regCtrlC]
  | .setEmb _ => [.read s.cfg.regEmb, .write s.cfg.regEmb]
  | .getEmb _ => [.read s.cfg.regEmb]
  | .readXl a =>
    [.burst (s.cfg.outXlBase + BitVec.ofNat 8 (2 * a.toNat)), .read s.cfg.regCtrlXl, .read s.cfg.regFsm]
  | .readG a => [.burst (s.cfg.outGBase + BitVec.ofNat 8 (2 * a.toNat)), .read s.cfg.regCtrlG]
  | .readRawXl a => [.burst (s.cfg.outXlBase + BitVec.ofNat 8 (2 * a.toNat))]
  | .readRawG a => [.burst (s.cfg.outGBase + BitVec.ofNat 8 (2 * a.toNat))]
  | .getDrdy _ => [.read s.cfg.regStatus]
  | .getAllones _ => []
  | .getOtherfail _ => []

/-! ### The invariant -/

/-- The transaction a program issues next, after its own steps before it. -/
def Prog.request : Prog → Option TxOp
  | .finish _ _ => none
  | .setReady _ p => p.request
  | .bump _ p => p.request
  | .xfer op _ => some op

/-- The invariant of the machine. -/
structure State.Inv (s : State) : Prop where
  /-- The device's registers are in canonical form. -/
  regs_wf : Memory.wf s.regs
  /-- Only the seven codes of R86 stand in `RES`; 0x7 to 0xF are reserved (R88). -/
  status_legal : s.res.toNat ≤ 6
  /-- `DATA` is 0 after any status other than `OK`, except `ERR_ID_MISMATCH` (R23). -/
  data_zero_on_error : s.res ≠ 0 → s.res ≠ 5 → s.data = 0
  /-- After `ERR_ID_MISMATCH`, `DATA` is a zero-extended byte (R250). -/
  data_byte_on_mismatch : s.res = 5 → s.data.toNat < 256
  /-- The counters are within `CNT_WIDTH` bits (R26, R27). -/
  all_ones_bounded : s.cntAllOnes.toNat ≤ 2 ^ s.cfg.cntWidth - 1
  other_bounded : s.cntOther.toNat ≤ 2 ^ s.cfg.cntWidth - 1
  /-- `READY = 1` only with a verified identity (R25). -/
  ready_verified : s.ready = true → s.identity = s.cfg.whoAmIValue
  /-- The engine is busy exactly while a transaction is outstanding. That an idle engine has none is the spec's (R24, R54);
  that a busy one has one after every step is the model's choice (DESIGN CHOICE, log 27) and form (log 5). -/
  busy_iff_pending : s.busy = s.pending.isSome
  /-- An idle engine holds no temporaries (R29). -/
  idle_no_temps : s.pending = none → s.temps = []
  /-- The outstanding transaction is the one the command in `CMD` comes to after the replies it has had, addressed to the
  device (R54); the command passed dispatch (R89). -/
  in_progress : ∀ q, s.pending = some q → q.dev = s.cfg.devAddr ∧
    ∃ i, decode s.cmd = .ok i ∧ i.wf = true ∧ (i.needsReady = true → s.ready = true) ∧
      (i.needsReady = false → s.ready = false) ∧
      ((progOf i s).after s.temps).request = some q.op
  /-- The first reply of an `INIT` in progress is the device's identity (R250, R53 item 4). -/
  init_identity : ∀ a, decode s.cmd = .ok (.init a) → ∀ r, s.temps.head? = some r → r.lo = s.identity

end Sys2Proof.Machine
end

