-- ==== Sys2Proof/Certificates/Slice0/Obligations.lean ====
section
/-! DEFINITION. The statements for the provers. `s.done regs code d ops rest` is the state `s` once a command has completed
(Safety.lean); its record update says what every completion statement leaves unchanged. -/

open Sys2Proof Sys2Proof.Machine

/-- The reset values of the table of R300, of the reset state and of an engine reset from any state. (70_reset_and_hazards.md R300, 10_state.md R21 to R27.) -/
def Obligations.ResetValues : Prop :=
  (∀ (s : State) (landed : Bool), let t := s.engineReset landed
    t.cmd = 0 ∧ t.res = 0 ∧ t.data = 0 ∧ t.busy = false ∧ t.ready = false ∧ t.cntAllOnes = 0 ∧ t.cntOther = 0) ∧
  (let t := State.reset;
    t.cmd = 0 ∧ t.res = 0 ∧ t.data = 0 ∧ t.busy = false ∧ t.ready = false ∧ t.cntAllOnes = 0 ∧ t.cntOther = 0 ∧
    hostLoad t 0xC = 0)

/-- An engine reset abandons the command in progress; a write in flight leaves the old or the new byte. That the request log is emptied, that the later inputs stay and that a read in flight changes nothing are the model's, log 12 and 18. (70_reset_and_hazards.md R300, 70_reset_and_hazards.md R301, 70_reset_and_hazards.md R302, 70_reset_and_hazards.md R303.) -/
def Obligations.ResetAbandonsCommand : Prop :=
  ∀ (s : State) (landed : Bool) (rest : List Input),
    s.cfg.wf = true → Memory.wf s.regs → s.inputs = .engineReset landed :: rest →
    ∃ t, step s = .next t ∧
      t.cmd = 0 ∧ t.res = 0 ∧ t.data = 0 ∧ t.busy = false ∧ t.ready = false ∧ t.cntAllOnes = 0 ∧ t.cntOther = 0 ∧
      t.pending = none ∧ t.temps = [] ∧ t.tx = [] ∧ t.inputs = rest ∧ t.identity = s.identity ∧ t.cfg = s.cfg ∧
      (∀ a : Byte, t.reg a =
        match s.pending with
        | some ⟨_, .writeOne r v⟩ => if a = r ∧ landed = true then v else s.reg a
        | _ => s.reg a)

/-- No event but engine reset lowers a counter, and none passes its maximum. (10_state.md R26, 10_state.md R27, 44_raw_sample.md R232.) -/
def Obligations.OnlyResetClearsCounters : Prop :=
  ∀ s t : State, s.cfg.wf = true →
    s.cntAllOnes.toNat ≤ 2 ^ s.cfg.cntWidth - 1 → s.cntOther.toNat ≤ 2 ^ s.cfg.cntWidth - 1 →
    (∀ landed, s.inputs.head? ≠ some (.engineReset landed)) → step s = .next t →
    s.cntAllOnes.toNat ≤ t.cntAllOnes.toNat ∧ t.cntAllOnes.toNat ≤ 2 ^ s.cfg.cntWidth - 1 ∧
    s.cntOther.toNat ≤ t.cntOther.toNat ∧ t.cntOther.toNat ≤ 2 ^ s.cfg.cntWidth - 1

/-- The invariant holds at reset. The device at reset is the model's choice of log 2; the clause that a busy engine has a transaction outstanding is the model's, log 27 and 5. (70_reset_and_hazards.md R300, 10_state.md R38.) -/
def Obligations.InvariantAtReset : Prop :=
  State.reset.Inv

/-- Every step keeps the invariant. That a busy engine has a transaction outstanding after every step is the model's choice, log 27, and its form, log 5. (10_state.md R22 to R29, 20_memory.md R54, 30_encoding.md R88.) -/
def Obligations.StepKeepsInvariant : Prop :=
  ∀ s t : State, s.Inv → step s = .next t → t.Inv

/-- Decoding an encoded command gives it back, and a word that decodes encodes back to itself. (30_encoding.md R80, 30_encoding.md R81, 30_encoding.md R91.) -/
def Obligations.DecodeEncodeRoundTrip : Prop :=
  (∀ i : Instr, decode (encode i) = .ok i) ∧
  (∀ (w : Word) (i : Instr), decode w = .ok i → encode i = w)

/-- Words written out from the encodings decode to their commands. (30_encoding.md R80, 30_encoding.md R81, 30_encoding.md R92.) -/
def Obligations.SampleWordsDecode : Prop :=
  decode 0b00000001000000000000000000000000 = .ok (.init 0) ∧
  decode 0b00010000000000000000000000001000 = .ok (.setXlRange 8) ∧
  decode 0b00010010000000000000000000010000 = .ok (.setXlOdr 16) ∧
  decode 0b00100010000000010000010000101000 = .ok (.setGOdr 66600) ∧
  decode 0b00110000000000000000000000000001 = .ok (.setBdu 1) ∧
  decode 0b01000001000000000000000000000010 = .ok (.readG 2) ∧
  decode 0b01001000000000000000000000000010 = .ok (.readRawXl 2) ∧
  decode 0b01010000000000000000000000000000 = .ok (.getDrdy 0) ∧
  decode 0b01100001000000000000000000000000 = .ok (.getOtherfail 0)

/-- Every opcode outside the map ends with ERR_ILLEGAL_OP, data 0, no transaction. That the step which accepts the word also completes it is the model's choice, log 27. (30_encoding.md R87, 30_encoding.md R89.) -/
def Obligations.IllegalOpcodeEndsIllegal : Prop :=
  ∀ (s : State) (w : Word) (rest : List Input),
    s.cfg.wf = true → s.busy = false → s.inputs = .hostWrite 32 0 w :: rest →
    (let op := w.toNat / 2 ^ 24
     op = 0x00 ∨ (0x02 ≤ op ∧ op ≤ 0x0F) ∨ (0x1A ≤ op ∧ op ≤ 0x1F) ∨ (0x28 ≤ op ∧ op ≤ 0x2F) ∨
     (0x34 ≤ op ∧ op ≤ 0x3F) ∨ (0x42 ≤ op ∧ op ≤ 0x47) ∨ (0x4A ≤ op ∧ op ≤ 0x4F) ∨ (0x51 ≤ op ∧ op ≤ 0x5F) ∨
     (0x62 ≤ op ∧ op ≤ 0xFF)) →
    step s = .next { s.done s.regs 3 0 [] rest with cmd := w }

/-- A step runs the command the host writes, or that withFetchWord places. How a command is placed, the second clause, is the model's choice, log 10; that acceptance and the run up to the first wait are one step is its form, log 5 and 27. (20_memory.md R51, 30_encoding.md R89.) -/
def Obligations.StepRunsDecodedCommand : Prop :=
  (∀ (s : State) (w : Word) (i : Instr) (rest : List Input),
    s.cfg.wf = true → s.busy = false → s.inputs = .hostWrite 32 0 w :: rest → decode w = .ok i →
    step s = exec i { s with cmd := w, busy := true, inputs := rest }) ∧
  (∀ (s : State) (w : Nat) (i : Instr),
    s.cfg.wf = true → w < 2 ^ 32 → decodeTableWord 32 w = some i →
    step (s.withFetchWord 32 w) =
      exec i { s with cmd := BitVec.ofNat 32 w, busy := true, pending := none, temps := [] })

/-- An operand outside its class ends with ERR_INVALID before any transaction; one inside it passes. (30_encoding.md R82.) -/
def Obligations.OperandClassesEnforced : Prop :=
  ∀ (i : Instr) (s : State),
    if i.operand.toNat ∈
      (match i.cls with
       | .none => [0]
       | .bool => [0, 1]
       | .axis => [0, 1, 2]
       | .xlRange => [2, 4, 8, 16]
       | .gRange => [125, 250, 500, 1000, 2000]
       | .xlOdr => [0, 16, 125, 260, 520, 1040, 2080, 4160, 8330, 16600, 33300, 66600]
       | .gOdr => [0, 125, 260, 520, 1040, 2080, 4160, 8330, 16600, 33300, 66600] : List Nat)
    then (i.needsReady = true → s.ready = true) → exec i s = .next ((progOf i s).run s.fresh)
    else exec i s = .next (s.done s.regs 2 0 [] s.inputs)

/-- Dispatch checks the opcode, then the operand, then READY, each before any transaction. That a command without a transaction completes in the step that accepts it is the model's choice, log 27. (30_encoding.md R90, 30_encoding.md R89.) -/
def Obligations.DispatchOrder : Prop :=
  (∀ (s : State) (w : Word) (rest : List Input),
    s.cfg.wf = true → s.busy = false → s.inputs = .hostWrite 32 0 w :: rest →
    match decode w with
    | .error _ => step s = .next { s.done s.regs 3 0 [] rest with cmd := w }
    | .ok i =>
      if i.wf = false then step s = .next { s.done s.regs 2 0 [] rest with cmd := w }
      else if i.needsReady = true ∧ s.ready = false then step s = .next { s.done s.regs 4 0 [] rest with cmd := w }
      else step s = .next ((progOf i s).run { s with cmd := w, busy := true, inputs := rest, pending := none, temps := [], tx := [] })) ∧
  (∀ i : Instr, i.needsReady = false ↔ (∃ a, i = .init a) ∨ (∃ a, i = .getAllones a) ∨ (∃ a, i = .getOtherfail a))

/-- While READY is 0 a command that needs it ends with ERR_NOT_READY and no transaction. (10_state.md R25, 30_encoding.md R89.) -/
def Obligations.NotReadyRejected : Prop :=
  ∀ (i : Instr) (s : State), i.wf = true → s.ready = false →
    (∀ a, i ≠ .init a ∧ i ≠ .getAllones a ∧ i ≠ .getOtherfail a) →
    exec i s = .next (s.done s.regs 4 0 [] s.inputs)

/-- No command stops the machine: it completes with a status, or waits for the device. (60_exceptions.md R270, 60_exceptions.md R278.) -/
def Obligations.EveryCommandAnswersNextState : Prop :=
  ∀ (i : Instr) (s : State), ∃ t, exec i s = .next t ∧
    ((t.pending ≠ none ∧ t.busy = s.busy ∧ t.res = s.res ∧ t.data = s.data) ∨
     (t.pending = none ∧ t.temps = [] ∧ t.busy = false ∧ t.res.toNat ≤ 6))

/-- A host write starts a command only at CMD while idle; every other write has no effect. That a command without a transaction completes in the step of the write is the model's choice, log 27. (20_memory.md R51, 30_encoding.md R87, 30_encoding.md R89.) -/
def Obligations.HostWrites : Prop :=
  ∀ (s : State) (off v : Word) (rest : List Input),
    s.cfg.wf = true → s.inputs = .hostWrite 32 off v :: rest → off.toNat ∈ [0x0, 0x4, 0x8, 0xC] →
    if off = 0 ∧ s.busy = false then
      step s = match decode v with
        | .ok i => exec i { s with cmd := v, busy := true, inputs := rest }
        | .error _ => .next { s.done s.regs 3 0 [] rest with cmd := v }
    else step s = .next { s with inputs := rest }

/-- Host reads return CMD, RES, DATA and CSR and have no side effects; RES and DATA are one command's until CMD is written. (20_memory.md R52.) -/
def Obligations.HostReads : Prop :=
  (∀ (s : State) (off : Word) (rest : List Input),
    s.cfg.wf = true → s.inputs = .hostRead 32 off :: rest → off.toNat ∈ [0x0, 0x4, 0x8, 0xC] →
    ∃ v : Word, step s = .next { s with inputs := rest, hostReply := some v } ∧
      (off.toNat = 0x0 → v = s.cmd) ∧ (off.toNat = 0x4 → v.toNat = s.res.toNat) ∧ (off.toNat = 0x8 → v = s.data) ∧
      (off.toNat = 0xC → v.toNat = 2 * s.ready.toNat + s.busy.toNat)) ∧
  (∀ s t : State, step s = .next t → (t.res ≠ s.res ∨ t.data ≠ s.data) → t.busy = false) ∧
  (∀ s t : State, s.Inv → s.busy = false →
    (∀ width v, s.inputs.head? ≠ some (.hostWrite width 0 v)) → (∀ landed, s.inputs.head? ≠ some (.engineReset landed)) →
    step s = .next t → t.res = s.res ∧ t.data = s.data ∧ t.busy = false) ∧
  (∀ (n : Nat) (s t : State), s.Inv → s.busy = false →
    (∀ e ∈ s.inputs, (∀ width v, e ≠ .hostWrite width 0 v) ∧ ∀ landed, e ≠ .engineReset landed) →
    Sys2Proof.core.run n s = .next t → t.res = s.res ∧ t.data = s.data ∧ t.busy = false)

/-- A host access that is not an aligned word is refused; a word at an offset with no register reads 0 and ignores writes. That offsets from 0x10 on have no register is the model's reading, log 7. (20_memory.md R50, 93_implementation_defined.md U1.) -/
def Obligations.UnsupportedHostAccessRefused : Prop :=
  ∀ (s : State) (width : Nat) (off v : Word) (rest : List Input), s.cfg.wf = true →
    (width ≠ 32 ∨ off.toNat % 4 ≠ 0 →
      (s.inputs = .hostRead width off :: rest → step s = .refused (.unsupportedHostAccess width off)) ∧
      (s.inputs = .hostWrite width off v :: rest → step s = .refused (.unsupportedHostAccess width off))) ∧
    (width = 32 ∧ off.toNat % 4 = 0 ∧ 0x10 ≤ off.toNat →
      (s.inputs = .hostRead width off :: rest → step s = .next { s with inputs := rest, hostReply := some 0 }) ∧
      (s.inputs = .hostWrite width off v :: rest → step s = .next { s with inputs := rest }))

/-- A configuration that fails a condition of R97 does not run; the default meets them all. (30_encoding.md R97, 93_implementation_defined.md U11.) -/
def Obligations.IllFormedConfigurationRefused : Prop :=
  (∀ s : State, s.cfg.wf = false → step s = .refused .illFormedCfg) ∧ Cfg.default.wf = true

/-- The accelerometer range codes. (30_encoding.md R98.) -/
def Obligations.XlRangeCodes : Prop :=
  [0, 1, 2, 3].map (fun c => (decXlFs false c).g) = [2, 16, 4, 8] ∧
  [0, 1, 2, 3].map (fun c => (decXlFs true c).g) = [2, 2, 4, 8] ∧
  [XlRange.g2, .g4, .g8, .g16].map encXlFs = [0, 2, 3, 1] ∧
  (∀ m : Byte, rangePolicy m .g16 = if m = 1 then .g8 else .g16) ∧
  (∀ (m : Byte) (v : XlRange), v ≠ .g16 → rangePolicy m v = v)

/-- The gyroscope range codes. (30_encoding.md R100.) -/
def Obligations.GyroRangeCodes : Prop :=
  [0, 1, 2, 3].map (fun c => (decGFs false c).dps) = [250, 500, 1000, 2000] ∧
  [0, 1, 2, 3].map (fun c => (decGFs true c).dps) = [125, 125, 125, 125] ∧
  [GRange.dps125, .dps250, .dps500, .dps1000, .dps2000].map encGFs = [(1, 0), (0, 0), (0, 1), (0, 2), (0, 3)]

/-- The sensitivity tables. (43_scaling.md R211, 43_scaling.md R212.) -/
def Obligations.SensitivityTables : Prop :=
  [0, 1, 2, 3].map (sensXl false) = [61, 488, 122, 244] ∧
  [0, 1, 2, 3].map (sensXl true) = [61, 61, 122, 244] ∧
  [0, 1, 2, 3].map (sensG false) = [8750, 17500, 35000, 70000] ∧
  [0, 1, 2, 3].map (sensG true) = [4375, 4375, 4375, 4375] ∧
  (let m := 0x1F3B645A1CAC08
   [61, 122, 244, 488].map (fpOfMilli binary64) = [⟨false, m, -57⟩, ⟨false, m, -56⟩, ⟨false, m, -55⟩, ⟨false, m, -54⟩]) ∧
  (let m := 0x11800000000000
   [4375, 8750, 17500, 35000, 70000].map (fpOfMilli binary64) =
    [⟨false, m, -50⟩, ⟨false, m, -49⟩, ⟨false, m, -48⟩, ⟨false, m, -47⟩, ⟨false, m, -46⟩])

/-- A field put is the field got, and no other bit changes. (20_memory.md R62.) -/
def Obligations.FieldPutGet : Prop :=
  ∀ (f : Field) (b v : Byte), 1 ≤ f.w → f.lsb + f.w ≤ 8 →
    (v.toNat < 2 ^ f.w → f.get (f.put b v) = v) ∧
    (∀ k, f.mask.getLsbD k = decide (f.lsb ≤ k ∧ k < f.lsb + f.w)) ∧
    (∀ k, f.mask.getLsbD k = false → (f.put b v).getLsbD k = b.getLsbD k) ∧
    (f.get b).toNat = b.toNat / 2 ^ f.lsb % 2 ^ f.w

/-- What the device answers: control registers keep the last write, the identity is fixed, data and status are draws. (20_memory.md R53 items 1 to 5.) -/
def Obligations.DeviceAnswersByKind : Prop :=
  ∀ (s : State) (a : Answer), s.cfg.wf = true → Memory.wf s.regs →
    (∀ r ∈ s.cfg.controlAddrs, ∀ (v : Byte) (ok landed : Bool) (r' : Byte), r' ∈ s.cfg.controlAddrs →
      let t := { s with regs := s.regsAfter (.writeOne r v) ok landed }
      (ok = true → (t.reply (.readOne r) a).lo = v) ∧
      (ok = false → (t.reply (.readOne r) a).lo = if landed then v else (s.reply (.readOne r) a).lo) ∧
      (r' ≠ r → (t.reply (.readOne r') a).lo = (s.reply (.readOne r') a).lo)) ∧
    (s.reply (.readOne s.cfg.regWhoAmI) a).lo = s.identity ∧
    (∀ r ∈ s.cfg.drawAddrs, (s.reply (.readOne r) a).lo = a.b0) ∧
    (∀ r, (s.reply (.readOne r) a).ok = a.ok ∧ (s.reply (.readBurst r) a).ok = a.ok ∧ ∀ v, (s.reply (.writeOne r v) a).ok = a.ok) ∧
    (∀ r, s.regsAfter (.readOne r) a.ok a.landed = s.regs ∧ s.regsAfter (.readBurst r) a.ok a.landed = s.regs)

/-- SET_XL_RANGE completes: two transactions, or three with the mode read and the downgrade for 16g. (40_codec_accel.md R130, 30_encoding.md R98.) -/
def Obligations.SetXlRangeCompletes : Prop :=
  ∀ (s : State) (arg : Operand) (a0 a1 a2 : Answer) (rest : List Input), s.cfg.wf = true → s.ready = true →
    a0.ok = true → a1.ok = true → a2.ok = true →
    let r := s.cfg.regCtrlXl
    let m := s.cfg.fXlFsmode.get (s.reg s.cfg.regFsm)
    let put (code : Byte) := s.cfg.fXlFs.put (s.reg r) code
    (∀ code : Byte, (arg.toNat, code) ∈ [(2, 0), (4, 2), (8, 3)] → s.inputs = .answer a1 :: .answer a2 :: rest →
      exec (.setXlRange arg) s =
        .next (s.done (s.regsWith r (put code)) 0 0 [.readOne r, .writeOne r (put code)] rest)) ∧
    (arg.toNat = 16 → s.inputs = .answer a0 :: .answer a1 :: .answer a2 :: rest →
      let code := if m = 1 then 3 else 1
      exec (.setXlRange arg) s =
        .next (s.done (s.regsWith r (put code)) 0 0 [.readOne s.cfg.regFsm, .readOne r, .writeOne r (put code)] rest))

/-- SET_XL_ODR completes: two transactions, or three with the high-performance read and the upgrade for 1.6 Hz. (40_codec_accel.md R132, 30_encoding.md R84.) -/
def Obligations.SetXlOdrCompletes : Prop :=
  ∀ (s : State) (arg : Operand) (v : XlRate) (a0 a1 a2 : Answer) (rest : List Input), s.cfg.wf = true → s.ready = true →
    a0.ok = true → a1.ok = true → a2.ok = true → arg.toNat = v.dHz →
    let r := s.cfg.regCtrlXl
    let put (v : XlRate) := s.cfg.fXlOdr.put (s.reg r) (s.cfg.odrCodeXl.code v)
    (v ≠ .hz1_6 → s.inputs = .answer a1 :: .answer a2 :: rest →
      exec (.setXlOdr arg) s =
        .next (s.done (s.regsWith r (put v)) 0 0 [.readOne r, .writeOne r (put v)] rest)) ∧
    (v = .hz1_6 → s.inputs = .answer a0 :: .answer a1 :: .answer a2 :: rest →
      let u : XlRate := if s.cfg.fXlHp.get (s.reg s.cfg.regHpXl) = (if s.cfg.fXlHp.inv then 0 else 1) then .hz1_6 else .hz12_5
      exec (.setXlOdr arg) s =
        .next (s.done (s.regsWith r (put u)) 0 0 [.readOne s.cfg.regHpXl, .readOne r, .writeOne r (put u)] rest))

/-- SET_XL_HP, SET_XL_FSMODE, SET_G_HP, SET_BDU and SET_EMB complete. (40_codec_accel.md R134, 40_codec_accel.md R138, 41_codec_gyro.md R164, 42_codec_common.md R190, 42_codec_common.md R192.) -/
def Obligations.BooleanSettersComplete : Prop :=
  ∀ p ∈ ([(Instr.setXlHp, Cfg.fXlHp), (.setXlFsmode, Cfg.fXlFsmode), (.setGHp, Cfg.fGHp), (.setBdu, Cfg.fBdu),
      (.setEmb, Cfg.fEmb)] : List ((Operand → Instr) × (Cfg → Field))),
    ∀ (s : State) (v : Bool) (a1 a2 : Answer) (rest : List Input), s.cfg.wf = true → s.ready = true →
    s.inputs = .answer a1 :: .answer a2 :: rest → a1.ok = true → a2.ok = true →
    let f := p.2 s.cfg
    let b := f.put (s.reg f.reg) (if v = f.inv then 0 else 1)
    exec (p.1 (if v then 1 else 0)) s =
      .next (s.done (s.regsWith f.reg b) 0 0 [.readOne f.reg, .writeOne f.reg b] rest)

/-- SET_XL_EN and SET_G_EN complete: off writes the off code, on from off the enable rate, on while on nothing. (40_codec_accel.md R136, 41_codec_gyro.md R166.) -/
def Obligations.EnableSettersComplete : Prop :=
  ∀ p ∈ ([(Instr.setXlEn, Cfg.fXlOdr, fun c => c.odrCodeXl.off, fun c => c.odrCodeXl.code c.enableOdrXl),
      (.setGEn, Cfg.fGOdr, fun c => c.odrCodeG.off, fun c => c.odrCodeG.code c.enableOdrG)] :
      List ((Operand → Instr) × (Cfg → Field) × (Cfg → Byte) × (Cfg → Byte))),
    ∀ (s : State) (a1 a2 : Answer) (rest : List Input), s.cfg.wf = true → s.ready = true →
    a1.ok = true → a2.ok = true →
    let f := p.2.1 s.cfg
    let off := f.put (s.reg f.reg) (p.2.2.1 s.cfg)
    let on := f.put (s.reg f.reg) (p.2.2.2 s.cfg)
    (s.inputs = .answer a1 :: .answer a2 :: rest →
      exec (p.1 0) s = .next (s.done (s.regsWith f.reg off) 0 0 [.readOne f.reg, .writeOne f.reg off] rest)) ∧
    (s.inputs = .answer a1 :: .answer a2 :: rest → f.get (s.reg f.reg) = p.2.2.1 s.cfg →
      exec (p.1 1) s = .next (s.done (s.regsWith f.reg on) 0 0 [.readOne f.reg, .writeOne f.reg on] rest)) ∧
    (s.inputs = .answer a1 :: rest → f.get (s.reg f.reg) ≠ p.2.2.1 s.cfg →
      exec (p.1 1) s = .next (s.done s.regs 0 0 [.readOne f.reg] rest))

/-- SET_G_RANGE and SET_G_ODR complete with one read and one write of REG_CTRL_G. (41_codec_gyro.md R160, 41_codec_gyro.md R162.) -/
def Obligations.GyroSettersComplete : Prop :=
  ∀ (s : State) (arg : Operand) (a1 a2 : Answer) (rest : List Input), s.cfg.wf = true → s.ready = true →
    s.inputs = .answer a1 :: .answer a2 :: rest → a1.ok = true → a2.ok = true →
    let r := s.cfg.regCtrlG
    (∀ flag code : Byte,
      (arg.toNat, flag, code) ∈ [(125, 1, 0), (250, 0, 0), (500, 0, 1), (1000, 0, 2), (2000, 0, 3)] →
      let b := s.cfg.fGFs125.put (s.cfg.fGFs.put (s.reg r) code) flag
      exec (.setGRange arg) s = .next (s.done (s.regsWith r b) 0 0 [.readOne r, .writeOne r b] rest)) ∧
    (∀ v : GRate, arg.toNat = v.dHz →
      let b := s.cfg.fGOdr.put (s.reg r) (s.cfg.odrCodeG.code v)
      exec (.setGOdr arg) s = .next (s.done (s.regsWith r b) 0 0 [.readOne r, .writeOne r b] rest))

/-- GET_XL_HP, GET_XL_FSMODE, GET_G_HP, GET_BDU and GET_EMB complete with the field's boolean. (40_codec_accel.md R135, 40_codec_accel.md R139, 41_codec_gyro.md R165, 42_codec_common.md R191, 42_codec_common.md R193.) -/
def Obligations.BooleanGettersComplete : Prop :=
  ∀ p ∈ ([(Instr.getXlHp, Cfg.fXlHp), (.getXlFsmode, Cfg.fXlFsmode), (.getGHp, Cfg.fGHp), (.getBdu, Cfg.fBdu),
      (.getEmb, Cfg.fEmb)] : List ((Operand → Instr) × (Cfg → Field))),
    ∀ (s : State) (a1 : Answer) (rest : List Input), s.cfg.wf = true → s.ready = true →
    s.inputs = .answer a1 :: rest → a1.ok = true →
    let f := p.2 s.cfg
    exec (p.1 0) s =
      .next (s.done s.regs 0 (if f.get (s.reg f.reg) = (if f.inv then 0 else 1) then 1 else 0) [.readOne f.reg] rest)

/-- GET_XL_RANGE and GET_G_RANGE complete with the decoded range. (40_codec_accel.md R131, 41_codec_gyro.md R161, 30_encoding.md R98, 30_encoding.md R100.) -/
def Obligations.RangeGettersComplete : Prop :=
  ∀ (s : State) (a1 a2 : Answer) (rest : List Input), s.cfg.wf = true → s.ready = true → a1.ok = true → a2.ok = true →
    let c := s.cfg.fXlFs.get (s.reg s.cfg.regCtrlXl)
    let m := s.cfg.fXlFsmode.get (s.reg s.cfg.regFsm)
    let flag := s.cfg.fGFs125.get (s.reg s.cfg.regCtrlG)
    let code := s.cfg.fGFs.get (s.reg s.cfg.regCtrlG)
    (s.inputs = .answer a1 :: .answer a2 :: rest → ∀ g : Word,
      (m, c, g) ∈ [(0, 0, 2), (0, 1, 16), (0, 2, 4), (0, 3, 8), (1, 0, 2), (1, 1, 2), (1, 2, 4), (1, 3, 8)] →
      exec (.getXlRange 0) s =
        .next (s.done s.regs 0 g [.readOne s.cfg.regCtrlXl, .readOne s.cfg.regFsm] rest)) ∧
    (s.inputs = .answer a1 :: rest → ∀ d : Word,
      (flag, code, d) ∈ [(0, 0, 250), (0, 1, 500), (0, 2, 1000), (0, 3, 2000), (1, 0, 125), (1, 1, 125), (1, 2, 125), (1, 3, 125)] →
      exec (.getGRange 0) s = .next (s.done s.regs 0 d [.readOne s.cfg.regCtrlG] rest)) ∧
    m.toNat < 2 ∧ c.toNat < 4 ∧ flag.toNat < 2 ∧ code.toNat < 4

/-- GET_XL_ODR and GET_G_ODR complete with the rate whose code is stored, or ERR_BAD_CODE. (40_codec_accel.md R133, 41_codec_gyro.md R163, 30_encoding.md R99.) -/
def Obligations.RateGettersComplete : Prop :=
  ∀ (s : State) (a1 : Answer) (rest : List Input), s.cfg.wf = true → s.ready = true →
    s.inputs = .answer a1 :: rest → a1.ok = true →
    let xl := s.cfg.fXlOdr.get (s.reg s.cfg.regCtrlXl)
    let g := s.cfg.fGOdr.get (s.reg s.cfg.regCtrlG)
    (∀ v : XlRate, s.cfg.odrCodeXl.code v = xl →
      exec (.getXlOdr 0) s = .next (s.done s.regs 0 (word v.dHz) [.readOne s.cfg.regCtrlXl] rest)) ∧
    ((∀ v : XlRate, s.cfg.odrCodeXl.code v ≠ xl) →
      exec (.getXlOdr 0) s = .next (s.done s.regs 6 0 [.readOne s.cfg.regCtrlXl] rest)) ∧
    (∀ v : GRate, s.cfg.odrCodeG.code v = g →
      exec (.getGOdr 0) s = .next (s.done s.regs 0 (word v.dHz) [.readOne s.cfg.regCtrlG] rest)) ∧
    ((∀ v : GRate, s.cfg.odrCodeG.code v ≠ g) →
      exec (.getGOdr 0) s = .next (s.done s.regs 6 0 [.readOne s.cfg.regCtrlG] rest))

/-- GET_XL_EN and GET_G_EN complete with 1 exactly where the rate code is not the off code. (40_codec_accel.md R137, 41_codec_gyro.md R167.) -/
def Obligations.EnabledGettersComplete : Prop :=
  ∀ (s : State) (a1 : Answer) (rest : List Input), s.cfg.wf = true → s.ready = true →
    s.inputs = .answer a1 :: rest → a1.ok = true →
    exec (.getXlEn 0) s =
      .next (s.done s.regs 0 (if s.cfg.fXlOdr.get (s.reg s.cfg.regCtrlXl) = s.cfg.odrCodeXl.off then 0 else 1)
        [.readOne s.cfg.regCtrlXl] rest) ∧
    exec (.getGEn 0) s =
      .next (s.done s.regs 0 (if s.cfg.fGOdr.get (s.reg s.cfg.regCtrlG) = s.cfg.odrCodeG.off then 0 else 1)
        [.readOne s.cfg.regCtrlG] rest)

/-- READ_RAW_XL and READ_RAW_G complete with the sample sign-extended, counting an all-ones sample. (44_raw_sample.md R230 to R234.) -/
def Obligations.RawReadsComplete : Prop :=
  ∀ p ∈ ([(Instr.readRawXl, Cfg.outXlBase), (.readRawG, Cfg.outGBase)] : List ((Operand → Instr) × (Cfg → Byte))),
    ∀ (s : State) (arg : Operand) (a1 : Answer) (rest : List Input), s.cfg.wf = true → s.ready = true →
    arg.toNat < 3 → s.inputs = .answer a1 :: rest → a1.ok = true →
    let n : Int := a1.b0.toNat + 256 * a1.b1.toNat
    exec (p.1 arg) s =
      .next { s.done s.regs 0 (BitVec.ofInt 32 (if 0x8000 ≤ n then n - 0x10000 else n))
                [.readBurst (p.2 s.cfg + BitVec.ofNat 8 (2 * arg.toNat))] rest with
              cntAllOnes :=
                if a1.b0 = 0xFF ∧ a1.b1 = 0xFF ∧ s.cntAllOnes.toNat ≠ 2 ^ s.cfg.cntWidth - 1 then s.cntAllOnes + 1
                else s.cntAllOnes }

/-- READ_XL and READ_G complete with the sample scaled by the configuration read after it. (43_scaling.md R210, 43_scaling.md R215, 43_scaling.md R216.) -/
def Obligations.ScaledReadsComplete : Prop :=
  ∀ (s : State) (arg : Operand) (a1 a2 a3 : Answer) (rest : List Input), s.cfg.wf = true → s.ready = true →
    arg.toNat < 3 → a1.ok = true → a2.ok = true → a3.ok = true →
    let cnt := if a1.b0 = 0xFF ∧ a1.b1 = 0xFF ∧ s.cntAllOnes.toNat ≠ 2 ^ s.cfg.cntWidth - 1 then s.cntAllOnes + 1
      else s.cntAllOnes
    let raw : Sample := BitVec.ofNat 16 (a1.b0.toNat + 256 * a1.b1.toNat)
    let c := s.cfg.fXlFs.get (s.reg s.cfg.regCtrlXl)
    let m := s.cfg.fXlFsmode.get (s.reg s.cfg.regFsm)
    let flag := s.cfg.fGFs125.get (s.reg s.cfg.regCtrlG)
    let code := s.cfg.fGFs.get (s.reg s.cfg.regCtrlG)
    (s.inputs = .answer a1 :: .answer a2 :: .answer a3 :: rest → ∀ sens : Nat,
      (m, c, sens) ∈ [(0, 0, 61), (0, 1, 488), (0, 2, 122), (0, 3, 244), (1, 0, 61), (1, 1, 61), (1, 2, 122), (1, 3, 244)] →
      exec (.readXl arg) s =
        .next { s.done s.regs 0 (scale s.cfg.fpEval raw sens)
                  [.readBurst (s.cfg.outXlBase + BitVec.ofNat 8 (2 * arg.toNat)), .readOne s.cfg.regCtrlXl,
                   .readOne s.cfg.regFsm] rest with cntAllOnes := cnt }) ∧
    (s.inputs = .answer a1 :: .answer a2 :: rest → ∀ sens : Nat,
      (flag, code, sens) ∈ [(0, 0, 8750), (0, 1, 17500), (0, 2, 35000), (0, 3, 70000), (1, 0, 4375), (1, 1, 4375),
        (1, 2, 4375), (1, 3, 4375)] →
      exec (.readG arg) s =
        .next { s.done s.regs 0 (scale s.cfg.fpEval raw sens)
                  [.readBurst (s.cfg.outGBase + BitVec.ofNat 8 (2 * arg.toNat)), .readOne s.cfg.regCtrlG] rest with
                cntAllOnes := cnt })

/-- INIT verifies the identity, sets auto-increment and READY; a mismatch reports the byte and writes nothing. (45_system.md R250.) -/
def Obligations.InitCompletes : Prop :=
  ∀ (s : State) (a1 a2 a3 : Answer) (rest : List Input), s.cfg.wf = true →
    a1.ok = true → a2.ok = true → a3.ok = true →
    let r := s.cfg.regCtrlC
    let b := s.cfg.fIfInc.put (s.reg r) 1
    (s.inputs = .answer a1 :: .answer a2 :: .answer a3 :: rest → s.identity = s.cfg.whoAmIValue →
      exec (.init 0) s =
        .next { s.done (s.regsWith r b) 0 (BitVec.ofNat 32 s.identity.toNat)
                  [.readOne s.cfg.regWhoAmI, .readOne r, .writeOne r b] rest with ready := true }) ∧
    (s.inputs = .answer a1 :: rest → s.identity ≠ s.cfg.whoAmIValue →
      exec (.init 0) s =
        .next { s.done s.regs 5 (BitVec.ofNat 32 s.identity.toNat) [.readOne s.cfg.regWhoAmI] rest with ready := false })

/-- GET_DRDY completes with the masked status byte. (45_system.md R251, 30_encoding.md R103.) -/
def Obligations.StatusQueryCompletes : Prop :=
  ∀ (s : State) (a1 : Answer) (rest : List Input), s.cfg.wf = true → s.ready = true →
    s.inputs = .answer a1 :: rest → a1.ok = true →
    exec (.getDrdy 0) s =
      .next (s.done s.regs 0 (BitVec.ofNat 32 (a1.b0 &&& s.cfg.drdyMask).toNat) [.readOne s.cfg.regStatus] rest)

/-- GET_ALLONES and GET_OTHERFAIL complete with their counter, in any state, without a transaction. (45_system.md R252, 45_system.md R253.) -/
def Obligations.CounterQueriesComplete : Prop :=
  ∀ s : State,
    exec (.getAllones 0) s = .next (s.done s.regs 0 s.cntAllOnes [] s.inputs) ∧
    exec (.getOtherfail 0) s = .next (s.done s.regs 0 s.cntOther [] s.inputs)

/-- A failing transaction ends the command at once with ERR_TRANSPORT. (60_exceptions.md R273.) -/
def Obligations.FailedTransactionEndsCommand : Prop :=
  ∀ (i : Instr) (s w : State) (oks : List Answer) (q : Request) (f : Answer) (rest : List Input),
    (∀ a ∈ oks, a.ok = true) → f.ok = false →
    exec i { s with inputs := oks.map .answer } = .next w → w.pending = some q →
    exec i { s with inputs := oks.map .answer ++ .answer f :: rest } =
      .next { w with
        res := 1, data := 0, busy := false, pending := none, temps := [], inputs := rest
        regs := match q.op with
          | .writeOne r v => if f.landed then w.regsWith r v else w.regs
          | _ => w.regs
        cntOther := match q.op with
          | .readBurst _ => if w.cntOther = BitVec.ofNat 32 (2 ^ w.cfg.cntWidth - 1) then w.cntOther else w.cntOther + 1
          | _ => w.cntOther }

/-- Whatever fails, a command leaves the device's registers as they were or as it would leave them on success. (60_exceptions.md R275.) -/
def Obligations.CommandLeavesOldOrFinalRegisters : Prop :=
  ∀ (i : Instr) (s t : State), s.cfg.wf = true → exec i s = .next t →
    t.regs = s.regs ∨
    ∃ (answers : List Answer) (u : State),
      exec i { s with inputs := answers.map .answer } = .next u ∧ u.pending = none ∧ u.res = 0 ∧ u.regs = t.regs

/-- After a completion, DATA is 0 unless the status is OK or ERR_ID_MISMATCH, and only legal codes stand in RES. (10_state.md R23, 60_exceptions.md R272.) -/
def Obligations.ErrorsLeaveDataZero : Prop :=
  ∀ (i : Instr) (s t : State), s.busy = true → exec i s = .next t → t.busy = false →
    t.res.toNat ≤ 6 ∧ t.res ≠ 3 ∧ (t.res ≠ 0 → t.res ≠ 5 → t.data = 0) ∧
    (t.res = 5 → (∃ a, i = .init a) ∧ t.data = BitVec.ofNat 32 s.identity.toNat ∧ s.identity ≠ s.cfg.whoAmIValue ∧ t.ready = false) ∧
    (t.res = 6 → (∃ a, i = .getXlOdr a) ∨ (∃ a, i = .getGOdr a))

/-- What every command leaves unchanged. (60_exceptions.md R272, 10_state.md R21 to R27, 20_memory.md R65.) -/
def Obligations.CommandFrame : Prop :=
  ∀ (i : Instr) (s t : State), s.cfg.wf = true → exec i s = .next t →
    t.cmd = s.cmd ∧ t.identity = s.identity ∧ t.cfg = s.cfg ∧ t.hostReply = s.hostReply ∧
    (∀ a : Byte, (∀ f ∈ ownFields s.cfg i, a ≠ f.reg) → t.reg a = s.reg a) ∧
    (ownFields s.cfg i = [] → t.regs = s.regs) ∧
    ((∀ a, i ≠ .init a) → t.ready = s.ready) ∧
    (sampleBase s.cfg i = none → t.cntAllOnes = s.cntAllOnes ∧ t.cntOther = s.cntOther) ∧
    (t.pending ≠ none → t.busy = s.busy ∧ t.res = s.res ∧ t.data = s.data)

/-- A command changes only the bits of its own fields, so every other field decodes as before. (40_codec_accel.md R141, 41_codec_gyro.md R169, 20_memory.md R65, 42_codec_common.md R190 to R194, 45_system.md R250.) -/
def Obligations.SettersPreserveForeignBits : Prop :=
  ∀ (i : Instr) (s t : State), s.cfg.wf = true → Memory.wf s.regs → exec i s = .next t →
    (∀ (a : Byte) (k : Nat), (∀ f ∈ ownFields s.cfg i, f.reg = a → f.mask.getLsbD k = false) →
      (t.reg a).getLsbD k = (s.reg a).getLsbD k) ∧
    (∀ g ∈ s.cfg.fields, g ∉ ownFields s.cfg i → g.get (t.reg g.reg) = g.get (s.reg g.reg))

/-- No command clears the stored auto-increment bit, and INIT sets it. The clauses on the stored bit hold whatever its polarity; those on auto-increment itself take it not inverted, log 14. (42_codec_common.md R194, 45_system.md R250, 70_reset_and_hazards.md R317.) -/
def Obligations.AutoIncrementKept : Prop :=
  ∀ (i : Instr) (s t : State), s.cfg.wf = true → Memory.wf s.regs → exec i s = .next t →
    (s.cfg.fIfInc.get (s.reg s.cfg.regCtrlC) = 1 → t.cfg.fIfInc.get (t.reg t.cfg.regCtrlC) = 1) ∧
    (s.busy = true → i = .init 0 → t.busy = false → t.res = 0 → t.cfg.fIfInc.get (t.reg t.cfg.regCtrlC) = 1) ∧
    (s.cfg.fIfInc.inv = false →
      (s.autoInc = true → t.autoInc = true) ∧
      (s.busy = true → i = .init 0 → t.busy = false → t.res = 0 → t.autoInc = true))

/-- Accelerometer settings read back as set, but for the two documented policies. (40_codec_accel.md R140.) -/
def Obligations.AccelRoundTrip : Prop :=
  ∀ (s t u : State) (arg : Operand), s.cfg.wf = true → Memory.wf s.regs → s.busy = true → t.busy = false → t.res = 0 →
    u.busy = false → u.res = 0 →
    (exec (.setXlRange arg) s = .next t → exec (.getXlRange 0) (t.accepting (.getXlRange 0)) = .next u →
      u.data.toNat =
        if arg.toNat = 16 ∧ s.cfg.fXlFsmode.get (s.reg s.cfg.regFsm) = 1 then 8 else arg.toNat) ∧
    (exec (.setXlOdr arg) s = .next t → exec (.getXlOdr 0) (t.accepting (.getXlOdr 0)) = .next u →
      u.data.toNat =
        if arg.toNat = 16 ∧ s.cfg.fXlHp.getBool (s.reg s.cfg.regHpXl) = false then 125 else arg.toNat)

/-- Gyroscope settings read back as set. (41_codec_gyro.md R168.) -/
def Obligations.GyroRoundTrip : Prop :=
  ∀ (s t u : State) (arg : Operand), s.cfg.wf = true → Memory.wf s.regs → s.busy = true → t.busy = false → t.res = 0 →
    u.busy = false → u.res = 0 →
    (exec (.setGRange arg) s = .next t → exec (.getGRange 0) (t.accepting (.getGRange 0)) = .next u →
      u.data.toNat = arg.toNat) ∧
    (exec (.setGOdr arg) s = .next t → exec (.getGOdr 0) (t.accepting (.getGOdr 0)) = .next u →
      u.data.toNat = arg.toNat)

/-- SET_XL_FSMODE leaves the stored range code, so a stored code 1 reads 16g in legacy and 2g in extended mode. The hypothesis on the field's polarity is log 14's. (70_reset_and_hazards.md R314, 40_codec_accel.md R138.) -/
def Obligations.ModeChangeReinterpretsRange : Prop :=
  ∀ (s t u : State) (ext : Bool), s.cfg.wf = true → Memory.wf s.regs → s.cfg.fXlFsmode.inv = false →
    s.cfg.fXlFs.get (s.reg s.cfg.regCtrlXl) = 1 → s.busy = true →
    exec (.setXlFsmode (if ext then 1 else 0)) s = .next t → t.busy = false → t.res = 0 →
    exec (.getXlRange 0) (t.accepting (.getXlRange 0)) = .next u → u.busy = false → u.res = 0 →
    t.reg s.cfg.regCtrlXl = s.reg s.cfg.regCtrlXl ∧ u.data = if ext then 2 else 16

/-- Each counter counts its own event, once. (44_raw_sample.md R235.) -/
def Obligations.CounterLaws : Prop :=
  ∀ (i : Instr) (s t : State), s.cfg.wf = true → exec i s = .next t →
    (∀ (a : Answer) (rest : List Input), sampleBase s.cfg i ≠ none → i.wf = true → s.ready = true →
      s.inputs = .answer a :: rest →
      s.cntAllOnes.toNat < 2 ^ s.cfg.cntWidth - 1 → s.cntOther.toNat < 2 ^ s.cfg.cntWidth - 1 →
      (a.ok = true → a.b0 = 0xFF → a.b1 = 0xFF → t.cntAllOnes = s.cntAllOnes + 1 ∧ t.cntOther = s.cntOther) ∧
      (a.ok = false → t.cntOther = s.cntOther + 1 ∧ t.cntAllOnes = s.cntAllOnes) ∧
      (a.ok = true → (a.b0 ≠ 0xFF ∨ a.b1 ≠ 0xFF) → t.cntAllOnes = s.cntAllOnes ∧ t.cntOther = s.cntOther)) ∧
    ((sampleBase s.cfg i = none ∨ i.wf = false ∨ s.ready = false) →
      t.cntAllOnes = s.cntAllOnes ∧ t.cntOther = s.cntOther)

/-- A command that completes with OK issued exactly the transactions of the cost table, in order. (70_reset_and_hazards.md R320.) -/
def Obligations.TransactionTable : Prop :=
  ∀ (i : Instr) (s t : State), s.cfg.wf = true → s.busy = true → exec i s = .next t → t.busy = false →
    (t.res = 0 → t.tx.map (·.op.shape) = txTable s i) ∧ (∀ q ∈ t.tx, q.dev = s.cfg.devAddr) ∧
    (i.wf = false ∨ (i.needsReady = true ∧ s.ready = false) → t.tx = []) ∧
    (t.tx.map (·.op.shape)) <+: txTable s i

/-- Without an answer or a reset, a busy engine never completes. What ends the inputs is the model's, log 4. (70_reset_and_hazards.md R319, 20_memory.md R54, 10_state.md R24.) -/
def Obligations.UnansweredTransactionNeverCompletes : Prop :=
  ∀ (n : Nat) (s t : State), s.busy = true → s.pending ≠ none →
    (∀ e ∈ s.inputs, (∀ a, e ≠ .answer a) ∧ ∀ l, e ≠ .engineReset l) →
    Sys2Proof.core.run n s = .next t →
    t.busy = true ∧ t.pending = s.pending ∧ t.temps = s.temps ∧ t.cmd = s.cmd ∧ t.res = s.res ∧ t.data = s.data ∧
    t.ready = s.ready ∧ t.cntAllOnes = s.cntAllOnes ∧ t.cntOther = s.cntOther

/-- A command that waits for its answers one at a time ends as if they had stood ready. Running a command over the answers that stand next is the model's form, log 5. (20_memory.md R54, 20_memory.md R66.) -/
def Obligations.SuspendedCommandResumes : Prop :=
  ∀ (i : Instr) (s w : State) (xs : List Answer) (a : Answer) (rest : List Input),
    s.cfg.wf = true → decode s.cmd = .ok i →
    exec i { s with inputs := xs.map .answer } = .next w → w.pending ≠ none →
    step { w with inputs := .answer a :: rest } = exec i { s with inputs := xs.map .answer ++ .answer a :: rest }

/-- No command depends on an earlier one's word, status, data, temporaries or requests. (60_exceptions.md R279, 10_state.md R28, 10_state.md R29.) -/
def Obligations.EarlierResultAndRequestsDoNotMatter : Prop :=
  ∀ (i : Instr) (s t t' : State) (cmd data : Word) (res : BitVec 4) (p : Option Request) (rs : List Reply)
    (tx : List Request) (h : Option Word),
    exec i s = .next t →
    exec i { s with cmd := cmd, data := data, res := res, pending := p, temps := rs, tx := tx, hostReply := h } = .next t' →
    t' = { t with
      cmd := cmd, hostReply := h
      res := if t.pending = none then t.res else res
      data := if t.pending = none then t.data else data }

/-- READY is set by a successful INIT alone and cleared at the start of every INIT. (10_state.md R25, 45_system.md R250.) -/
def Obligations.ReadyOnlyByInit : Prop :=
  ∀ (i : Instr) (s t : State), s.busy = true → exec i s = .next t →
    (i = .init 0 → (t.ready = true ↔ t.busy = false ∧ t.res = 0)) ∧
    (i = .init 0 → t.ready = true → s.identity = s.cfg.whoAmIValue) ∧
    (i ≠ .init 0 → t.ready = s.ready)

/-- Rounding to a format is to the nearest value, ties to even. Formats without a greatest exponent are the model's reading, log 15. (00_scope.md R14.) -/
def Obligations.RoundingIsNearestEven : Prop :=
  ∀ (f : FpFormat) (neg : Bool) (n d : Nat), 1 ≤ f.prec → 0 < n → 0 < d →
    let r := roundTo f neg n d
    let err : ℚ := |(n : ℚ) / d - r.sig * (2 : ℚ) ^ r.exp|
    err ≤ (2 : ℚ) ^ r.exp / 2 ∧ (err = (2 : ℚ) ^ r.exp / 2 → r.sig % 2 = 0) ∧
    r.sig ≤ 2 ^ f.prec ∧ (r.exp = f.emin ∨ 2 ^ (f.prec - 1) ≤ r.sig) ∧ f.emin ≤ r.exp ∧ r.neg = neg

/-- The scaler's corner cases: zero, sign, no special values, the extremes. (43_scaling.md R214, 43_scaling.md R213.) -/
def Obligations.ScaleCornerCases : Prop :=
  ∀ (m : FpEval), ∀ sens ∈ [61, 122, 244, 488, 4375, 8750, 17500, 35000, 70000],
    scale m 0 sens = 0 ∧
    (∀ raw : Sample, raw ≠ 0 →
      let w := scale m raw sens
      w.getLsbD 31 = decide (raw.toInt < 0) ∧ 1 ≤ (w.extractLsb' 23 8).toNat ∧ (w.extractLsb' 23 8).toNat ≤ 254) ∧
    scale m 0x8000 70000 = 0xC50F5C29 ∧ scale m 0x7FFF 70000 = 0x450F5B0A

/-- Negating a sample negates its scaled value. (43_scaling.md R213, 43_scaling.md R214.) -/
def Obligations.ScaleOddSymmetry : Prop :=
  ∀ (m : FpEval) (raw : Sample) (sens : Nat), raw ≠ 0 → raw ≠ 0x8000 →
    scale m (-raw) sens = scale m raw sens ^^^ 0x80000000

/-- A sample is its low byte and its high byte, two's complement. (44_raw_sample.md R230.) -/
def Obligations.SampleAssembly : Prop :=
  ∀ lo hi : Byte,
    (assemble lo hi).toNat = hi.toNat * 256 + lo.toNat ∧
    (assemble lo hi).toInt =
      if 0x8000 ≤ (assemble lo hi).toNat then ((assemble lo hi).toNat : Int) - 0x10000 else (assemble lo hi).toNat

/-- The assembler writes only commands, and a class operand only inside its class. The reading of the syntax is the model's, log 19. (30_encoding.md R92, 30_encoding.md R93.) -/
def Obligations.AssembledLinesDecode : Prop :=
  (∀ (line : List Char) (w : Word), assembleLine line = some w → ∃ i, w = encode i ∧ decode w = .ok i) ∧
  (∀ (line m o : List Char) (w : Word), splitBlanks [] (line.takeWhile (· != ';')) = [m, o] → o.head? ≠ some '#' →
    assembleLine line = some w → ∃ i, decode w = .ok i ∧ i.wf = true) ∧
  assembleLine "SET_XL_RANGE 8".toList = some 0x10000008 ∧ assembleLine "SET_XL_ODR 1.6".toList = some 0x12000010 ∧
  assembleLine "READ_G Z".toList = some 0x41000002 ∧ assembleLine "INIT".toList = some 0x01000000

/-- In every step READY changes only by INIT or by engine reset. (10_state.md R25, 45_system.md R250, 70_reset_and_hazards.md R300.) -/
def Obligations.ReadyChangesOnlyAtInitOrReset : Prop :=
  ∀ s t : State, s.Inv → step s = .next t → t.ready ≠ s.ready →
    ((∃ landed, s.inputs.head? = some (.engineReset landed)) ∧ t.ready = false) ∨
    (decode t.cmd = .ok (.init 0) ∧
      ((∃ v, s.inputs.head? = some (.hostWrite 32 0 v) ∧ s.busy = false ∧ t.cmd = v) ∨
       (∃ a, s.inputs.head? = some (.answer a) ∧ s.busy = true ∧ t.cmd = s.cmd)) ∧
      (t.ready = true → t.busy = false ∧ t.res = 0 ∧ t.identity = t.cfg.whoAmIValue))

/-- A foreign write of the device, and an answer to no transaction, leave the engine as it was. The event of a foreign write is the model's form, log 11; that a stray answer has no effect is the model's choice, log 6. (70_reset_and_hazards.md R310, 93_implementation_defined.md U7, 93_implementation_defined.md U19.) -/
def Obligations.ForeignEventsLeaveEngine : Prop :=
  (∀ (s : State) (a v : Byte) (rest : List Input), s.cfg.wf = true → Memory.wf s.regs →
    s.inputs = .deviceWrite a v :: rest →
    ∃ t, step s = .next t ∧ t = { s with inputs := rest, regs := t.regs } ∧ Memory.wf t.regs ∧
      ∀ b : Byte, t.reg b = if b = a then v else s.reg b) ∧
  (∀ (s : State) (a : Answer) (rest : List Input), s.cfg.wf = true → s.Inv → s.busy = false →
    s.inputs = .answer a :: rest → step s = .next { s with inputs := rest })
end

