-- ==== Sys2Proof/Laws/Cfg.lean ====
section
/-! SUPPORT. What a well-formed configuration gives (30_encoding.md R97), one fact per lemma. -/

namespace Sys2Proof.Cfg

variable {c : Cfg}

/-- The nine conditions, one by one. -/
theorem wf_iff : c.wf = true ↔
    c.wfShape = true ∧ c.wfWidths = true ∧ c.wfRegs = true ∧ c.wfDisjoint = true ∧ c.wfCodes = true ∧
    c.wfEnable = true ∧ c.wfBases = true ∧ c.wfAddrs = true ∧ c.wfWidth = true := by
  simp only [wf, Bool.and_eq_true]
  tauto

/-- Item 1. -/
theorem wf_shape (h : c.wf = true) (f : Field) (hf : f ∈ c.fields) :
    1 ≤ f.w ∧ f.lsb + f.w ≤ 8 ∧ (1 < f.w → f.inv = false) := by
  have h1 := (wf_iff.1 h).1
  simp only [wfShape, List.all_eq_true, Bool.and_eq_true, Bool.or_eq_true, decide_eq_true_eq, Bool.not_eq_true'] at h1
  obtain ⟨⟨h1, h2⟩, h3⟩ := h1 f hf
  exact ⟨h1, h2, fun hw => h3.resolve_left (by omega)⟩

/-- Item 2. -/
theorem wf_widths (h : c.wf = true) :
    c.fXlFs.w = 2 ∧ c.fGFs.w = 2 ∧ c.fGFs125.w = 1 ∧ c.fXlFsmode.w = 1 ∧ c.fBdu.w = 1 ∧ c.fIfInc.w = 1 ∧
    c.fXlHp.w = 1 ∧ c.fGHp.w = 1 ∧ c.fEmb.w = 1 := by
  have h1 := (wf_iff.1 h).2.1
  simp [wfWidths] at h1
  tauto

/-- Item 3. -/
theorem wf_regs (h : c.wf = true) :
    c.fXlOdr.reg = c.regCtrlXl ∧ c.fXlFs.reg = c.regCtrlXl ∧ c.fGOdr.reg = c.regCtrlG ∧ c.fGFs.reg = c.regCtrlG ∧
    c.fGFs125.reg = c.regCtrlG ∧ c.fBdu.reg = c.regCtrlC ∧ c.fIfInc.reg = c.regCtrlC ∧ c.fXlFsmode.reg = c.regFsm ∧
    c.fXlHp.reg = c.regHpXl ∧ c.fGHp.reg = c.regHpG ∧ c.fEmb.reg = c.regEmb ∧ c.regFsm ≠ c.regCtrlXl := by
  have h1 := (wf_iff.1 h).2.2.1
  simp [wfRegs] at h1
  tauto

/-- Every field lies in a control register. -/
theorem wf_field_control (h : c.wf = true) (f : Field) (hf : f ∈ c.fields) : f.reg ∈ c.controlAddrs := by
  have := wf_regs h
  simp only [fields, List.mem_cons, List.not_mem_nil, or_false] at hf
  rcases hf with rfl | rfl | rfl | rfl | rfl | rfl | rfl | rfl | rfl | rfl | rfl <;> simp [controlAddrs, this]

/-- Item 4. -/
theorem wf_disjoint (h : c.wf = true) :
    c.fields.Pairwise fun f g => f.reg = g.reg → f.mask &&& g.mask = 0 := by
  have h1 := (wf_iff.1 h).2.2.2.1
  simpa [wfDisjoint] using h1

/-- Item 5. -/
theorem wf_codes (h : c.wf = true) :
    (∀ r, (c.odrCodeXl.code r).toNat < 2 ^ c.fXlOdr.w) ∧ (∀ r, (c.odrCodeG.code r).toNat < 2 ^ c.fGOdr.w) ∧
    (XlRate.all.map c.odrCodeXl.code).Nodup ∧ (GRate.all.map c.odrCodeG.code).Nodup := by
  have h1 := (wf_iff.1 h).2.2.2.2.1
  simp only [wfCodes, Bool.and_eq_true, List.all_eq_true, decide_eq_true_eq] at h1
  obtain ⟨⟨⟨h1, h2⟩, h3⟩, h4⟩ := h1
  exact ⟨fun r => h1 r (by cases r <;> simp [XlRate.all]), fun r => h2 r (by cases r <;> simp [GRate.all]), h3, h4⟩

/-- Item 6. -/
theorem wf_enable (h : c.wf = true) : c.enableOdrXl ≠ .off ∧ c.enableOdrXl ≠ .hz1_6 ∧ c.enableOdrG ≠ .off := by
  have h1 := (wf_iff.1 h).2.2.2.2.2.1
  simp [wfEnable] at h1
  tauto

/-- Item 7. -/
theorem wf_bases (h : c.wf = true) : c.outXlBase.toNat + 5 ≤ 0xFF ∧ c.outGBase.toNat + 5 ≤ 0xFF := by
  have h1 := (wf_iff.1 h).2.2.2.2.2.2.1
  simpa [wfBases] using h1

/-- Item 8, the identity register and the data and status registers are pairwise distinct. -/
theorem wf_addrs_nodup (h : c.wf = true) : (c.regWhoAmI :: c.drawAddrs).Nodup := by
  have h1 := (wf_iff.1 h).2.2.2.2.2.2.2.1
  simp only [wfAddrs, Bool.and_eq_true, decide_eq_true_eq] at h1
  exact h1.1

/-- Item 8, a control register is neither the identity register nor a data or status register. -/
theorem wf_control (h : c.wf = true) (r : Byte) (hr : r ∈ c.controlAddrs) : r ≠ c.regWhoAmI ∧ r ∉ c.drawAddrs := by
  have h1 := (wf_iff.1 h).2.2.2.2.2.2.2.1
  simp only [wfAddrs, Bool.and_eq_true, List.all_eq_true, Bool.not_eq_true'] at h1
  have h2 : ∀ x ∈ c.regWhoAmI :: c.drawAddrs, x ∉ c.controlAddrs := fun x hx hc => by
    have := h1.2 x hx
    rw [List.contains_eq_mem, decide_eq_false_iff_not] at this
    exact this hc
  exact ⟨fun e => h2 c.regWhoAmI (by simp) (e ▸ hr), fun hd => h2 r (by simp [hd]) hr⟩

/-- Item 9. -/
theorem wf_width (h : c.wf = true) : 1 ≤ c.cntWidth ∧ c.cntWidth ≤ 32 := by
  have h1 := (wf_iff.1 h).2.2.2.2.2.2.2.2
  simpa [wfWidth] using h1

end Sys2Proof.Cfg
end

