-- ==== Sys2Proof/Laws/Memory.lean ====
section
/-! SUPPORT. The laws of the device's register file: read after write, and that a write keeps the canonical form. -/

namespace Sys2Proof.Machine.Memory

@[simp] theorem read_nil (a : Nat) : read [] a = unlisted a := rfl

theorem wf_nil : wf [] := by simp [wf]

/-- In a canonical list whose first address is above `a`, `a` is unlisted. -/
theorem read_eq_unlisted_of_lt (m : List Host.Cell) (a : Nat) (h : ∀ c ∈ m, a < c.1) : read m a = unlisted a := by
  induction m with
  | nil => rfl
  | cons c m ih =>
    obtain ⟨x, y⟩ := c
    have hx : a < x := h (x, y) (by simp)
    have : x ≠ a := by omega
    simp only [read, this, if_false]
    exact ih fun c hc => h c (by simp [hc])

theorem wf_cons (c : Host.Cell) (m : List Host.Cell) :
    wf (c :: m) ↔ (∀ d ∈ m, c.1 < d.1) ∧ c.1 < 256 ∧ c.2 ≠ unlisted c.1 ∧ wf m := by
  simp only [wf, List.pairwise_cons, List.mem_cons, forall_eq_or_imp]
  tauto

/-- A read after a write to the same address gives the byte written. -/
theorem read_write_same (m : List Host.Cell) (a : Nat) (b : Byte) (h : wf m) : read (write m a b) a = b := by
  induction m with
  | nil =>
    by_cases hb : b = unlisted a
    · simp [write, hb]
    · simp [write, hb, read]
  | cons c m ih =>
    obtain ⟨x, y⟩ := c
    obtain ⟨hlt, -, -, hm⟩ := (wf_cons _ _).1 h
    simp only [write]
    split
    · rename_i hax
      split
      · rename_i hb
        rw [read_eq_unlisted_of_lt _ _ (by
          intro c hc
          rcases List.mem_cons.1 hc with rfl | hc
          · exact hax
          · exact lt_trans hax (hlt c hc)), hb]
      · simp [read]
    · split
      · rename_i hax
        split
        · rename_i hb
          rw [read_eq_unlisted_of_lt m a (fun c hc => hax ▸ hlt c hc), hb]
        · simp [read]
      · rename_i hax
        simp only [read, Ne.symm hax, if_false]
        exact ih hm

/-- A write leaves every other address alone. -/
theorem read_write_other (m : List Host.Cell) (a a' : Nat) (b : Byte) (h : a' ≠ a) :
    read (write m a b) a' = read m a' := by
  induction m with
  | nil =>
    by_cases hb : b = unlisted a
    · simp [write, hb]
    · simp [write, hb, read, Ne.symm h]
  | cons c m ih =>
    obtain ⟨x, y⟩ := c
    simp only [write]
    split
    · split
      · rfl
      · simp [read, Ne.symm h]
    · split
      · rename_i hax
        split
        · simp [read, ← hax, Ne.symm h]
        · simp [read, ← hax, Ne.symm h]
      · simp only [read, ih]

/-- Every entry of a written list is an entry of the list before, or the byte written. -/
theorem mem_write (m : List Host.Cell) (a : Nat) (b : Byte) (c : Host.Cell) (h : c ∈ write m a b) :
    c ∈ m ∨ (c = (a, b) ∧ b ≠ unlisted a) := by
  induction m with
  | nil =>
    by_cases hb : b = unlisted a
    · simp [write, hb] at h
    · simp only [write, hb, if_false, List.mem_singleton] at h
      exact .inr ⟨h, hb⟩
  | cons e m ih =>
    obtain ⟨x, y⟩ := e
    simp only [write] at h
    split at h
    · split at h
      · exact .inl h
      · rename_i hb
        rcases List.mem_cons.1 h with h | h
        · exact .inr ⟨h, hb⟩
        · exact .inl h
    · split at h
      · split at h
        · exact .inl (List.mem_cons_of_mem _ h)
        · rename_i hb
          rcases List.mem_cons.1 h with h | h
          · exact .inr ⟨h, hb⟩
          · exact .inl (List.mem_cons_of_mem _ h)
      · rcases List.mem_cons.1 h with h | h
        · exact .inl (h ▸ List.mem_cons_self)
        · exact (ih h).imp (List.mem_cons_of_mem _) id

/-- A write to one of the 256 registers keeps the canonical form. -/
theorem write_wf (m : List Host.Cell) (a : Nat) (b : Byte) (ha : a < 256) (h : wf m) : wf (write m a b) := by
  induction m with
  | nil =>
    by_cases hb : b = unlisted a
    · simp [write, hb, wf]
    · simp [write, hb, wf, ha]
  | cons c m ih =>
    obtain ⟨x, y⟩ := c
    obtain ⟨hlt, hx, hy, hm⟩ := (wf_cons _ _).1 h
    simp only [write]
    split
    · rename_i hax
      split
      · exact h
      · rename_i hb
        refine (wf_cons _ _).2 ⟨?_, ha, hb, h⟩
        intro d hd
        rcases List.mem_cons.1 hd with rfl | hd
        · exact hax
        · exact lt_trans hax (hlt d hd)
    · split
      · rename_i hax
        split
        · exact hm
        · rename_i hb
          exact (wf_cons _ _).2 ⟨fun d hd => hax ▸ hlt d hd, ha, hb, hm⟩
      · refine (wf_cons _ _).2 ⟨?_, hx, hy, ih hm⟩
        intro d hd
        rcases mem_write m a b d hd with hd | ⟨rfl, -⟩
        · exact hlt d hd
        · show x < a
          omega

/-- A byte-addressed write keeps the canonical form. -/
theorem write_byte_wf (m : List Host.Cell) (a v : Byte) (h : wf m) : wf (write m a.toNat v) :=
  write_wf m a.toNat v a.isLt h

end Sys2Proof.Machine.Memory
end

