-- ==== Sys2Proof/Laws/Operands.lean ====
section
/-! SUPPORT. The operand forms, each said once: which setting an operand names, and that it names one exactly where its
class accepts it (30_encoding.md R82). -/

namespace Sys2Proof

/-- A search by number finds something exactly where the number is listed. -/
theorem find_number_isSome {α : Type} (l : List α) (f : α → Nat) (n : Nat) :
    (l.find? fun v => f v == n).isSome = (l.map f).contains n := by
  induction l with
  | nil => rfl
  | cons x l ih =>
    by_cases h : f x = n
    · simp [h]
    · have h' : ¬n = f x := fun e => h e.symm
      simp only [List.find?_cons, beq_eq_false_iff_ne.2 h, ih, List.map_cons, List.contains_cons,
        beq_eq_false_iff_ne.2 h', Bool.false_or]

/-- A search by number finds the one with that number, where the numbers are distinct. -/
theorem find_number_eq_some {α : Type} (l : List α) (f : α → Nat) (n : Nat) (h : (l.map f).Nodup) (v : α) (hv : v ∈ l) :
    (l.find? fun v => f v == n) = some v ↔ f v = n := by
  constructor
  · intro e
    simpa using List.find?_some e
  · rintro rfl
    induction l with
    | nil => cases hv
    | cons x l ih =>
      rcases List.mem_cons.1 hv with rfl | hm
      · simp
      · have hn := List.nodup_cons.1 h
        have hx : f x ≠ f v := fun e => hn.1 (e ▸ List.mem_map_of_mem hm)
        rw [List.find?_cons_of_neg (by simpa using hx)]
        exact ih hn.2 hm

theorem asNone_eq_some (a : Operand) (v : Unit) : asNone a = some v ↔ a.toNat = 0 := by simp [asNone]
theorem asBool_eq_some (a : Operand) (v : Bool) : asBool a = some v ↔ v.toNat = a.toNat :=
  find_number_eq_some _ Bool.toNat _ (by decide) v (by cases v <;> decide)
theorem asAxis_eq_some (a : Operand) (v : Axis) : asAxis a = some v ↔ v.index = a.toNat :=
  find_number_eq_some _ Axis.index _ (by decide) v (by cases v <;> decide)
theorem asXlRange_eq_some (a : Operand) (v : XlRange) : asXlRange a = some v ↔ v.g = a.toNat :=
  find_number_eq_some _ XlRange.g _ (by decide) v (by cases v <;> decide)
theorem asGRange_eq_some (a : Operand) (v : GRange) : asGRange a = some v ↔ v.dps = a.toNat :=
  find_number_eq_some _ GRange.dps _ (by decide) v (by cases v <;> decide)
theorem asXlRate_eq_some (a : Operand) (v : XlRate) : asXlRate a = some v ↔ v.dHz = a.toNat :=
  find_number_eq_some _ XlRate.dHz _ (by decide) v (by cases v <;> decide)
theorem asGRate_eq_some (a : Operand) (v : GRate) : asGRate a = some v ↔ v.dHz = a.toNat :=
  find_number_eq_some _ GRate.dHz _ (by decide) v (by cases v <;> decide)

theorem asNone_isSome (a : Operand) : (asNone a).isSome = OperandClass.none.accepts a := by
  by_cases h : a.toNat = 0 <;> simp [asNone, OperandClass.accepts, OperandClass.values, h]
theorem asBool_isSome (a : Operand) : (asBool a).isSome = OperandClass.bool.accepts a := find_number_isSome _ _ _
theorem asAxis_isSome (a : Operand) : (asAxis a).isSome = OperandClass.axis.accepts a := find_number_isSome _ _ _
theorem asXlRange_isSome (a : Operand) : (asXlRange a).isSome = OperandClass.xlRange.accepts a := find_number_isSome _ _ _
theorem asGRange_isSome (a : Operand) : (asGRange a).isSome = OperandClass.gRange.accepts a := find_number_isSome _ _ _
theorem asXlRate_isSome (a : Operand) : (asXlRate a).isSome = OperandClass.xlOdr.accepts a := find_number_isSome _ _ _
theorem asGRate_isSome (a : Operand) : (asGRate a).isSome = OperandClass.gOdr.accepts a := find_number_isSome _ _ _

end Sys2Proof
end

