-- ==== Sys2Proof/Laws/PerInstr.lean ====
section
/-! SUPPORT. The encoding of each command, per constructor (30_encoding.md R80, R81): the opcode stands in bits 31:24 and
the operand, whole, in bits 23:0. -/

namespace Sys2Proof.Laws

/-- The word of an opcode and an operand as a number. -/
theorem append_toNat (op : Byte) (a : Operand) : (op ++ a : BitVec (8 + 24)).toNat = op.toNat * 2 ^ 24 + a.toNat := by
  rw [BitVec.toNat_append, ← Nat.shiftLeft_add_eq_or_of_lt a.isLt, Nat.shiftLeft_eq]

/-- The two halves of a word put together from an opcode and an operand. -/
theorem fields_of_append (op : Byte) (a : Operand) :
    opcodeOf (op ++ a : BitVec (8 + 24)) = op ∧ operandOf (op ++ a : BitVec (8 + 24)) = a := by
  have h := append_toNat op a
  have ha := a.isLt
  have hop := op.isLt
  constructor
  · apply BitVec.eq_of_toNat_eq
    simp only [opcodeOf, BitVec.extractLsb'_toNat, Nat.shiftRight_eq_div_pow]
    erw [h]
    omega
  · apply BitVec.eq_of_toNat_eq
    simp only [operandOf, BitVec.extractLsb'_toNat, Nat.shiftRight_eq_div_pow]
    erw [h]
    omega

/-- The word of a command holds its opcode and its operand in their fields. -/
def EncodedFields.Statement (i : Instr) : Prop :=
  opcodeOf (encode i) = i.opcode ∧ operandOf (encode i) = i.operand

theorem EncodedFields.init (a : Operand) : EncodedFields.Statement (.init a) := fields_of_append _ _
theorem EncodedFields.setXlRange (a : Operand) : EncodedFields.Statement (.setXlRange a) := fields_of_append _ _
theorem EncodedFields.getXlRange (a : Operand) : EncodedFields.Statement (.getXlRange a) := fields_of_append _ _
theorem EncodedFields.setXlOdr (a : Operand) : EncodedFields.Statement (.setXlOdr a) := fields_of_append _ _
theorem EncodedFields.getXlOdr (a : Operand) : EncodedFields.Statement (.getXlOdr a) := fields_of_append _ _
theorem EncodedFields.setXlHp (a : Operand) : EncodedFields.Statement (.setXlHp a) := fields_of_append _ _
theorem EncodedFields.getXlHp (a : Operand) : EncodedFields.Statement (.getXlHp a) := fields_of_append _ _
theorem EncodedFields.setXlEn (a : Operand) : EncodedFields.Statement (.setXlEn a) := fields_of_append _ _
theorem EncodedFields.getXlEn (a : Operand) : EncodedFields.Statement (.getXlEn a) := fields_of_append _ _
theorem EncodedFields.setXlFsmode (a : Operand) : EncodedFields.Statement (.setXlFsmode a) := fields_of_append _ _
theorem EncodedFields.getXlFsmode (a : Operand) : EncodedFields.Statement (.getXlFsmode a) := fields_of_append _ _
theorem EncodedFields.setGRange (a : Operand) : EncodedFields.Statement (.setGRange a) := fields_of_append _ _
theorem EncodedFields.getGRange (a : Operand) : EncodedFields.Statement (.getGRange a) := fields_of_append _ _
theorem EncodedFields.setGOdr (a : Operand) : EncodedFields.Statement (.setGOdr a) := fields_of_append _ _
theorem EncodedFields.getGOdr (a : Operand) : EncodedFields.Statement (.getGOdr a) := fields_of_append _ _
theorem EncodedFields.setGHp (a : Operand) : EncodedFields.Statement (.setGHp a) := fields_of_append _ _
theorem EncodedFields.getGHp (a : Operand) : EncodedFields.Statement (.getGHp a) := fields_of_append _ _
theorem EncodedFields.setGEn (a : Operand) : EncodedFields.Statement (.setGEn a) := fields_of_append _ _
theorem EncodedFields.getGEn (a : Operand) : EncodedFields.Statement (.getGEn a) := fields_of_append _ _
theorem EncodedFields.setBdu (a : Operand) : EncodedFields.Statement (.setBdu a) := fields_of_append _ _
theorem EncodedFields.getBdu (a : Operand) : EncodedFields.Statement (.getBdu a) := fields_of_append _ _
theorem EncodedFields.setEmb (a : Operand) : EncodedFields.Statement (.setEmb a) := fields_of_append _ _
theorem EncodedFields.getEmb (a : Operand) : EncodedFields.Statement (.getEmb a) := fields_of_append _ _
theorem EncodedFields.readXl (a : Operand) : EncodedFields.Statement (.readXl a) := fields_of_append _ _
theorem EncodedFields.readG (a : Operand) : EncodedFields.Statement (.readG a) := fields_of_append _ _
theorem EncodedFields.readRawXl (a : Operand) : EncodedFields.Statement (.readRawXl a) := fields_of_append _ _
theorem EncodedFields.readRawG (a : Operand) : EncodedFields.Statement (.readRawG a) := fields_of_append _ _
theorem EncodedFields.getDrdy (a : Operand) : EncodedFields.Statement (.getDrdy a) := fields_of_append _ _
theorem EncodedFields.getAllones (a : Operand) : EncodedFields.Statement (.getAllones a) := fields_of_append _ _
theorem EncodedFields.getOtherfail (a : Operand) : EncodedFields.Statement (.getOtherfail a) := fields_of_append _ _

end Sys2Proof.Laws
end

