-- ==== Sys2Proof/Laws/State.lean ====
section
/-! SUPPORT. One lemma per field per state update, so that no later proof unfolds a record update. -/

namespace Sys2Proof.Machine.State

variable (s : State)

@[simp] theorem accept_cmd (w : Word) : (s.accept w).cmd = w := rfl
@[simp] theorem accept_res (w : Word) : (s.accept w).res = s.res := rfl
@[simp] theorem accept_data (w : Word) : (s.accept w).data = s.data := rfl
@[simp] theorem accept_busy (w : Word) : (s.accept w).busy = true := rfl
@[simp] theorem accept_ready (w : Word) : (s.accept w).ready = s.ready := rfl
@[simp] theorem accept_cntAllOnes (w : Word) : (s.accept w).cntAllOnes = s.cntAllOnes := rfl
@[simp] theorem accept_cntOther (w : Word) : (s.accept w).cntOther = s.cntOther := rfl
@[simp] theorem accept_pending (w : Word) : (s.accept w).pending = s.pending := rfl
@[simp] theorem accept_temps (w : Word) : (s.accept w).temps = s.temps := rfl
@[simp] theorem accept_regs (w : Word) : (s.accept w).regs = s.regs := rfl
@[simp] theorem accept_identity (w : Word) : (s.accept w).identity = s.identity := rfl
@[simp] theorem accept_cfg (w : Word) : (s.accept w).cfg = s.cfg := rfl
@[simp] theorem accept_inputs (w : Word) : (s.accept w).inputs = s.inputs := rfl
@[simp] theorem accept_tx (w : Word) : (s.accept w).tx = s.tx := rfl
@[simp] theorem accept_hostReply (w : Word) : (s.accept w).hostReply = s.hostReply := rfl

@[simp] theorem fresh_cmd : (s.fresh).cmd = s.cmd := rfl
@[simp] theorem fresh_res : (s.fresh).res = s.res := rfl
@[simp] theorem fresh_data : (s.fresh).data = s.data := rfl
@[simp] theorem fresh_busy : (s.fresh).busy = s.busy := rfl
@[simp] theorem fresh_ready : (s.fresh).ready = s.ready := rfl
@[simp] theorem fresh_cntAllOnes : (s.fresh).cntAllOnes = s.cntAllOnes := rfl
@[simp] theorem fresh_cntOther : (s.fresh).cntOther = s.cntOther := rfl
@[simp] theorem fresh_pending : (s.fresh).pending = none := rfl
@[simp] theorem fresh_temps : (s.fresh).temps = [] := rfl
@[simp] theorem fresh_regs : (s.fresh).regs = s.regs := rfl
@[simp] theorem fresh_identity : (s.fresh).identity = s.identity := rfl
@[simp] theorem fresh_cfg : (s.fresh).cfg = s.cfg := rfl
@[simp] theorem fresh_inputs : (s.fresh).inputs = s.inputs := rfl
@[simp] theorem fresh_tx : (s.fresh).tx = [] := rfl
@[simp] theorem fresh_hostReply : (s.fresh).hostReply = s.hostReply := rfl

@[simp] theorem finish_cmd (st : Status) (d : Word) : (s.finish st d).cmd = s.cmd := rfl
@[simp] theorem finish_res (st : Status) (d : Word) : (s.finish st d).res = st.code := rfl
@[simp] theorem finish_data (st : Status) (d : Word) : (s.finish st d).data = d := rfl
@[simp] theorem finish_busy (st : Status) (d : Word) : (s.finish st d).busy = false := rfl
@[simp] theorem finish_ready (st : Status) (d : Word) : (s.finish st d).ready = s.ready := rfl
@[simp] theorem finish_cntAllOnes (st : Status) (d : Word) : (s.finish st d).cntAllOnes = s.cntAllOnes := rfl
@[simp] theorem finish_cntOther (st : Status) (d : Word) : (s.finish st d).cntOther = s.cntOther := rfl
@[simp] theorem finish_pending (st : Status) (d : Word) : (s.finish st d).pending = none := rfl
@[simp] theorem finish_temps (st : Status) (d : Word) : (s.finish st d).temps = [] := rfl
@[simp] theorem finish_regs (st : Status) (d : Word) : (s.finish st d).regs = s.regs := rfl
@[simp] theorem finish_identity (st : Status) (d : Word) : (s.finish st d).identity = s.identity := rfl
@[simp] theorem finish_cfg (st : Status) (d : Word) : (s.finish st d).cfg = s.cfg := rfl
@[simp] theorem finish_inputs (st : Status) (d : Word) : (s.finish st d).inputs = s.inputs := rfl
@[simp] theorem finish_tx (st : Status) (d : Word) : (s.finish st d).tx = s.tx := rfl
@[simp] theorem finish_hostReply (st : Status) (d : Word) : (s.finish st d).hostReply = s.hostReply := rfl

@[simp] theorem setReady_cmd (b : Bool) : (s.setReady b).cmd = s.cmd := rfl
@[simp] theorem setReady_res (b : Bool) : (s.setReady b).res = s.res := rfl
@[simp] theorem setReady_data (b : Bool) : (s.setReady b).data = s.data := rfl
@[simp] theorem setReady_busy (b : Bool) : (s.setReady b).busy = s.busy := rfl
@[simp] theorem setReady_ready (b : Bool) : (s.setReady b).ready = b := rfl
@[simp] theorem setReady_cntAllOnes (b : Bool) : (s.setReady b).cntAllOnes = s.cntAllOnes := rfl
@[simp] theorem setReady_cntOther (b : Bool) : (s.setReady b).cntOther = s.cntOther := rfl
@[simp] theorem setReady_pending (b : Bool) : (s.setReady b).pending = s.pending := rfl
@[simp] theorem setReady_temps (b : Bool) : (s.setReady b).temps = s.temps := rfl
@[simp] theorem setReady_regs (b : Bool) : (s.setReady b).regs = s.regs := rfl
@[simp] theorem setReady_identity (b : Bool) : (s.setReady b).identity = s.identity := rfl
@[simp] theorem setReady_cfg (b : Bool) : (s.setReady b).cfg = s.cfg := rfl
@[simp] theorem setReady_inputs (b : Bool) : (s.setReady b).inputs = s.inputs := rfl
@[simp] theorem setReady_tx (b : Bool) : (s.setReady b).tx = s.tx := rfl
@[simp] theorem setReady_hostReply (b : Bool) : (s.setReady b).hostReply = s.hostReply := rfl

@[simp] theorem drop_cmd : (s.drop).cmd = s.cmd := rfl
@[simp] theorem drop_res : (s.drop).res = s.res := rfl
@[simp] theorem drop_data : (s.drop).data = s.data := rfl
@[simp] theorem drop_busy : (s.drop).busy = s.busy := rfl
@[simp] theorem drop_ready : (s.drop).ready = s.ready := rfl
@[simp] theorem drop_cntAllOnes : (s.drop).cntAllOnes = s.cntAllOnes := rfl
@[simp] theorem drop_cntOther : (s.drop).cntOther = s.cntOther := rfl
@[simp] theorem drop_pending : (s.drop).pending = s.pending := rfl
@[simp] theorem drop_temps : (s.drop).temps = s.temps := rfl
@[simp] theorem drop_regs : (s.drop).regs = s.regs := rfl
@[simp] theorem drop_identity : (s.drop).identity = s.identity := rfl
@[simp] theorem drop_cfg : (s.drop).cfg = s.cfg := rfl
@[simp] theorem drop_inputs : (s.drop).inputs = s.inputs.tail := rfl
@[simp] theorem drop_tx : (s.drop).tx = s.tx := rfl
@[simp] theorem drop_hostReply : (s.drop).hostReply = s.hostReply := rfl

@[simp] theorem deliver_cmd (w : Word) : (s.deliver w).cmd = s.cmd := rfl
@[simp] theorem deliver_res (w : Word) : (s.deliver w).res = s.res := rfl
@[simp] theorem deliver_data (w : Word) : (s.deliver w).data = s.data := rfl
@[simp] theorem deliver_busy (w : Word) : (s.deliver w).busy = s.busy := rfl
@[simp] theorem deliver_ready (w : Word) : (s.deliver w).ready = s.ready := rfl
@[simp] theorem deliver_cntAllOnes (w : Word) : (s.deliver w).cntAllOnes = s.cntAllOnes := rfl
@[simp] theorem deliver_cntOther (w : Word) : (s.deliver w).cntOther = s.cntOther := rfl
@[simp] theorem deliver_pending (w : Word) : (s.deliver w).pending = s.pending := rfl
@[simp] theorem deliver_temps (w : Word) : (s.deliver w).temps = s.temps := rfl
@[simp] theorem deliver_regs (w : Word) : (s.deliver w).regs = s.regs := rfl
@[simp] theorem deliver_identity (w : Word) : (s.deliver w).identity = s.identity := rfl
@[simp] theorem deliver_cfg (w : Word) : (s.deliver w).cfg = s.cfg := rfl
@[simp] theorem deliver_inputs (w : Word) : (s.deliver w).inputs = s.inputs := rfl
@[simp] theorem deliver_tx (w : Word) : (s.deliver w).tx = s.tx := rfl
@[simp] theorem deliver_hostReply (w : Word) : (s.deliver w).hostReply = some w := rfl

@[simp] theorem deviceWrite_cmd (a v : Byte) : (s.deviceWrite a v).cmd = s.cmd := rfl
@[simp] theorem deviceWrite_res (a v : Byte) : (s.deviceWrite a v).res = s.res := rfl
@[simp] theorem deviceWrite_data (a v : Byte) : (s.deviceWrite a v).data = s.data := rfl
@[simp] theorem deviceWrite_busy (a v : Byte) : (s.deviceWrite a v).busy = s.busy := rfl
@[simp] theorem deviceWrite_ready (a v : Byte) : (s.deviceWrite a v).ready = s.ready := rfl
@[simp] theorem deviceWrite_cntAllOnes (a v : Byte) : (s.deviceWrite a v).cntAllOnes = s.cntAllOnes := rfl
@[simp] theorem deviceWrite_cntOther (a v : Byte) : (s.deviceWrite a v).cntOther = s.cntOther := rfl
@[simp] theorem deviceWrite_pending (a v : Byte) : (s.deviceWrite a v).pending = s.pending := rfl
@[simp] theorem deviceWrite_temps (a v : Byte) : (s.deviceWrite a v).temps = s.temps := rfl
@[simp] theorem deviceWrite_regs (a v : Byte) : (s.deviceWrite a v).regs = Memory.write s.regs a.toNat v := rfl
@[simp] theorem deviceWrite_identity (a v : Byte) : (s.deviceWrite a v).identity = s.identity := rfl
@[simp] theorem deviceWrite_cfg (a v : Byte) : (s.deviceWrite a v).cfg = s.cfg := rfl
@[simp] theorem deviceWrite_inputs (a v : Byte) : (s.deviceWrite a v).inputs = s.inputs := rfl
@[simp] theorem deviceWrite_tx (a v : Byte) : (s.deviceWrite a v).tx = s.tx := rfl
@[simp] theorem deviceWrite_hostReply (a v : Byte) : (s.deviceWrite a v).hostReply = s.hostReply := rfl

@[simp] theorem issue_cmd (op : TxOp) : (s.issue op).cmd = s.cmd := rfl
@[simp] theorem issue_res (op : TxOp) : (s.issue op).res = s.res := rfl
@[simp] theorem issue_data (op : TxOp) : (s.issue op).data = s.data := rfl
@[simp] theorem issue_busy (op : TxOp) : (s.issue op).busy = s.busy := rfl
@[simp] theorem issue_ready (op : TxOp) : (s.issue op).ready = s.ready := rfl
@[simp] theorem issue_cntAllOnes (op : TxOp) : (s.issue op).cntAllOnes = s.cntAllOnes := rfl
@[simp] theorem issue_cntOther (op : TxOp) : (s.issue op).cntOther = s.cntOther := rfl
@[simp] theorem issue_pending (op : TxOp) : (s.issue op).pending = some ⟨s.cfg.devAddr, op⟩ := rfl
@[simp] theorem issue_temps (op : TxOp) : (s.issue op).temps = s.temps := rfl
@[simp] theorem issue_regs (op : TxOp) : (s.issue op).regs = s.regs := rfl
@[simp] theorem issue_identity (op : TxOp) : (s.issue op).identity = s.identity := rfl
@[simp] theorem issue_cfg (op : TxOp) : (s.issue op).cfg = s.cfg := rfl
@[simp] theorem issue_inputs (op : TxOp) : (s.issue op).inputs = s.inputs := rfl
@[simp] theorem issue_tx (op : TxOp) : (s.issue op).tx = s.tx ++ [⟨s.cfg.devAddr, op⟩] := rfl
@[simp] theorem issue_hostReply (op : TxOp) : (s.issue op).hostReply = s.hostReply := rfl

@[simp] theorem answered_cmd (op : TxOp) (a : Answer) : (s.answered op a).cmd = s.cmd := rfl
@[simp] theorem answered_res (op : TxOp) (a : Answer) : (s.answered op a).res = s.res := rfl
@[simp] theorem answered_data (op : TxOp) (a : Answer) : (s.answered op a).data = s.data := rfl
@[simp] theorem answered_busy (op : TxOp) (a : Answer) : (s.answered op a).busy = s.busy := rfl
@[simp] theorem answered_ready (op : TxOp) (a : Answer) : (s.answered op a).ready = s.ready := rfl
@[simp] theorem answered_cntAllOnes (op : TxOp) (a : Answer) : (s.answered op a).cntAllOnes = s.cntAllOnes := rfl
@[simp] theorem answered_cntOther (op : TxOp) (a : Answer) : (s.answered op a).cntOther = s.cntOther := rfl
@[simp] theorem answered_pending (op : TxOp) (a : Answer) : (s.answered op a).pending = none := rfl
@[simp] theorem answered_temps (op : TxOp) (a : Answer) : (s.answered op a).temps = s.temps ++ [s.reply op a] := rfl
@[simp] theorem answered_regs (op : TxOp) (a : Answer) : (s.answered op a).regs = s.regsAfter op a.ok a.landed := rfl
@[simp] theorem answered_identity (op : TxOp) (a : Answer) : (s.answered op a).identity = s.identity := rfl
@[simp] theorem answered_cfg (op : TxOp) (a : Answer) : (s.answered op a).cfg = s.cfg := rfl
@[simp] theorem answered_inputs (op : TxOp) (a : Answer) : (s.answered op a).inputs = s.inputs.tail := rfl
@[simp] theorem answered_tx (op : TxOp) (a : Answer) : (s.answered op a).tx = s.tx := rfl
@[simp] theorem answered_hostReply (op : TxOp) (a : Answer) : (s.answered op a).hostReply = s.hostReply := rfl

@[simp] theorem transact_cmd (op : TxOp) (a : Answer) : (s.transact op a).cmd = s.cmd := rfl
@[simp] theorem transact_res (op : TxOp) (a : Answer) : (s.transact op a).res = s.res := rfl
@[simp] theorem transact_data (op : TxOp) (a : Answer) : (s.transact op a).data = s.data := rfl
@[simp] theorem transact_busy (op : TxOp) (a : Answer) : (s.transact op a).busy = s.busy := rfl
@[simp] theorem transact_ready (op : TxOp) (a : Answer) : (s.transact op a).ready = s.ready := rfl
@[simp] theorem transact_cntAllOnes (op : TxOp) (a : Answer) : (s.transact op a).cntAllOnes = s.cntAllOnes := rfl
@[simp] theorem transact_cntOther (op : TxOp) (a : Answer) : (s.transact op a).cntOther = s.cntOther := rfl
@[simp] theorem transact_pending (op : TxOp) (a : Answer) : (s.transact op a).pending = none := rfl
@[simp] theorem transact_temps (op : TxOp) (a : Answer) : (s.transact op a).temps = s.temps ++ [s.reply op a] := by cases op <;> rfl
@[simp] theorem transact_regs (op : TxOp) (a : Answer) : (s.transact op a).regs = s.regsAfter op a.ok a.landed := by cases op <;> rfl
@[simp] theorem transact_identity (op : TxOp) (a : Answer) : (s.transact op a).identity = s.identity := rfl
@[simp] theorem transact_cfg (op : TxOp) (a : Answer) : (s.transact op a).cfg = s.cfg := rfl
@[simp] theorem transact_inputs (op : TxOp) (a : Answer) : (s.transact op a).inputs = s.inputs.tail := rfl
@[simp] theorem transact_tx (op : TxOp) (a : Answer) : (s.transact op a).tx = s.tx ++ [⟨s.cfg.devAddr, op⟩] := rfl
@[simp] theorem transact_hostReply (op : TxOp) (a : Answer) : (s.transact op a).hostReply = s.hostReply := rfl

@[simp] theorem engineReset_cmd (landed : Bool) : (s.engineReset landed).cmd = 0 := rfl
@[simp] theorem engineReset_res (landed : Bool) : (s.engineReset landed).res = 0 := rfl
@[simp] theorem engineReset_data (landed : Bool) : (s.engineReset landed).data = 0 := rfl
@[simp] theorem engineReset_busy (landed : Bool) : (s.engineReset landed).busy = false := rfl
@[simp] theorem engineReset_ready (landed : Bool) : (s.engineReset landed).ready = false := rfl
@[simp] theorem engineReset_cntAllOnes (landed : Bool) : (s.engineReset landed).cntAllOnes = 0 := rfl
@[simp] theorem engineReset_cntOther (landed : Bool) : (s.engineReset landed).cntOther = 0 := rfl
@[simp] theorem engineReset_pending (landed : Bool) : (s.engineReset landed).pending = none := rfl
@[simp] theorem engineReset_temps (landed : Bool) : (s.engineReset landed).temps = [] := rfl
@[simp] theorem engineReset_identity (landed : Bool) : (s.engineReset landed).identity = s.identity := rfl
@[simp] theorem engineReset_cfg (landed : Bool) : (s.engineReset landed).cfg = s.cfg := rfl
@[simp] theorem engineReset_inputs (landed : Bool) : (s.engineReset landed).inputs = s.inputs := rfl
@[simp] theorem engineReset_tx (landed : Bool) : (s.engineReset landed).tx = [] := rfl
@[simp] theorem engineReset_hostReply (landed : Bool) : (s.engineReset landed).hostReply = s.hostReply := rfl

/-- Engine reset leaves the device's registers as the write in flight, if there is one, leaves them (R303). -/
@[simp] theorem engineReset_regs_none (landed : Bool) (h : s.pending = none) : (s.engineReset landed).regs = s.regs := by
  simp [engineReset, h]

@[simp] theorem engineReset_regs_some (landed : Bool) (q : Request) (h : s.pending = some q) :
    (s.engineReset landed).regs = s.regsAfter q.op false landed := by
  simp [engineReset, h]

@[simp] theorem bump_cmd (k : Counter) : (s.bump k).cmd = s.cmd := by cases k <;> rfl
@[simp] theorem bump_res (k : Counter) : (s.bump k).res = s.res := by cases k <;> rfl
@[simp] theorem bump_data (k : Counter) : (s.bump k).data = s.data := by cases k <;> rfl
@[simp] theorem bump_busy (k : Counter) : (s.bump k).busy = s.busy := by cases k <;> rfl
@[simp] theorem bump_ready (k : Counter) : (s.bump k).ready = s.ready := by cases k <;> rfl
@[simp] theorem bump_pending (k : Counter) : (s.bump k).pending = s.pending := by cases k <;> rfl
@[simp] theorem bump_temps (k : Counter) : (s.bump k).temps = s.temps := by cases k <;> rfl
@[simp] theorem bump_regs (k : Counter) : (s.bump k).regs = s.regs := by cases k <;> rfl
@[simp] theorem bump_identity (k : Counter) : (s.bump k).identity = s.identity := by cases k <;> rfl
@[simp] theorem bump_cfg (k : Counter) : (s.bump k).cfg = s.cfg := by cases k <;> rfl
@[simp] theorem bump_inputs (k : Counter) : (s.bump k).inputs = s.inputs := by cases k <;> rfl
@[simp] theorem bump_tx (k : Counter) : (s.bump k).tx = s.tx := by cases k <;> rfl
@[simp] theorem bump_hostReply (k : Counter) : (s.bump k).hostReply = s.hostReply := by cases k <;> rfl
@[simp] theorem bump_allOnes_cntAllOnes : (s.bump .allOnes).cntAllOnes = satInc s.cfg s.cntAllOnes := rfl
@[simp] theorem bump_allOnes_cntOther : (s.bump .allOnes).cntOther = s.cntOther := rfl
@[simp] theorem bump_other_cntOther : (s.bump .other).cntOther = satInc s.cfg s.cntOther := rfl
@[simp] theorem bump_other_cntAllOnes : (s.bump .other).cntAllOnes = s.cntAllOnes := rfl

@[simp] theorem regsAfter_readOne (r : Byte) (ok landed : Bool) : s.regsAfter (.readOne r) ok landed = s.regs := rfl
@[simp] theorem regsAfter_readBurst (r : Byte) (ok landed : Bool) : s.regsAfter (.readBurst r) ok landed = s.regs := rfl
@[simp] theorem regsAfter_writeOne_ok (r v : Byte) (landed : Bool) :
    s.regsAfter (.writeOne r v) true landed = Memory.write s.regs r.toNat v := rfl
@[simp] theorem regsAfter_writeOne_landed (r v : Byte) :
    s.regsAfter (.writeOne r v) false true = Memory.write s.regs r.toNat v := rfl
@[simp] theorem regsAfter_writeOne_lost (r v : Byte) : s.regsAfter (.writeOne r v) false false = s.regs := rfl

@[simp] theorem reply_ok (op : TxOp) (a : Answer) : (s.reply op a).ok = a.ok := by cases op <;> rfl

/-- What the device answers depends on its registers, its identity and the configuration only. -/
theorem reply_congr (t : State) (hr : t.regs = s.regs) (hi : t.identity = s.identity) (hc : t.cfg = s.cfg) (op : TxOp)
    (a : Answer) : t.reply op a = s.reply op a := by
  cases op <;> simp [reply, devByte, autoInc, hr, hi, hc]

/-- What a register reads as depends on the device's registers, its identity and the configuration only. -/
theorem devByte_congr (t : State) (hr : t.regs = s.regs) (hi : t.identity = s.identity) (hc : t.cfg = s.cfg)
    (r d : Byte) : t.devByte r d = s.devByte r d := by
  simp [devByte, hr, hi, hc]

@[simp] theorem reply_accept (w : Word) (op : TxOp) (a : Answer) : (s.accept w).reply op a = s.reply op a :=
  reply_congr s _ (by simp) (by simp) (by simp) op a
@[simp] theorem devByte_accept (w : Word) (r d : Byte) : (s.accept w).devByte r d = s.devByte r d :=
  devByte_congr s _ (by simp) (by simp) (by simp) r d
@[simp] theorem reply_fresh (op : TxOp) (a : Answer) : (s.fresh).reply op a = s.reply op a :=
  reply_congr s _ (by simp) (by simp) (by simp) op a
@[simp] theorem devByte_fresh (r d : Byte) : (s.fresh).devByte r d = s.devByte r d :=
  devByte_congr s _ (by simp) (by simp) (by simp) r d
@[simp] theorem reply_finish (st : Status) (d : Word) (op : TxOp) (a : Answer) : (s.finish st d).reply op a = s.reply op a :=
  reply_congr s _ (by simp) (by simp) (by simp) op a
@[simp] theorem devByte_finish (st : Status) (d : Word) (reg v : Byte) : (s.finish st d).devByte reg v = s.devByte reg v :=
  devByte_congr s _ (by simp) (by simp) (by simp) reg v
@[simp] theorem reply_setReady (b : Bool) (op : TxOp) (a : Answer) : (s.setReady b).reply op a = s.reply op a :=
  reply_congr s _ (by simp) (by simp) (by simp) op a
@[simp] theorem devByte_setReady (b : Bool) (r d : Byte) : (s.setReady b).devByte r d = s.devByte r d :=
  devByte_congr s _ (by simp) (by simp) (by simp) r d
@[simp] theorem reply_bump (k : Counter) (op : TxOp) (a : Answer) : (s.bump k).reply op a = s.reply op a :=
  reply_congr s _ (by simp) (by simp) (by simp) op a
@[simp] theorem devByte_bump (k : Counter) (r d : Byte) : (s.bump k).devByte r d = s.devByte r d :=
  devByte_congr s _ (by simp) (by simp) (by simp) r d
@[simp] theorem reply_drop (op : TxOp) (a : Answer) : (s.drop).reply op a = s.reply op a :=
  reply_congr s _ (by simp) (by simp) (by simp) op a
@[simp] theorem devByte_drop (r d : Byte) : (s.drop).devByte r d = s.devByte r d :=
  devByte_congr s _ (by simp) (by simp) (by simp) r d
@[simp] theorem reply_issue (op' : TxOp) (op : TxOp) (a : Answer) : (s.issue op').reply op a = s.reply op a :=
  reply_congr s _ (by simp) (by simp) (by simp) op a
@[simp] theorem devByte_issue (op' : TxOp) (r d : Byte) : (s.issue op').devByte r d = s.devByte r d :=
  devByte_congr s _ (by simp) (by simp) (by simp) r d
@[simp] theorem reply_transact_readOne (r' : Byte) (b : Answer) (op : TxOp) (a : Answer) : (s.transact (.readOne r') b).reply op a = s.reply op a :=
  reply_congr s _ (by simp) (by simp) (by simp) op a
@[simp] theorem devByte_transact_readOne (r' : Byte) (b : Answer) (r d : Byte) : (s.transact (.readOne r') b).devByte r d = s.devByte r d :=
  devByte_congr s _ (by simp) (by simp) (by simp) r d
@[simp] theorem reply_transact_readBurst (r' : Byte) (b : Answer) (op : TxOp) (a : Answer) : (s.transact (.readBurst r') b).reply op a = s.reply op a :=
  reply_congr s _ (by simp) (by simp) (by simp) op a
@[simp] theorem devByte_transact_readBurst (r' : Byte) (b : Answer) (r d : Byte) : (s.transact (.readBurst r') b).devByte r d = s.devByte r d :=
  devByte_congr s _ (by simp) (by simp) (by simp) r d

end Sys2Proof.Machine.State
end

