-- ==== Sys2Proof/Laws/Run.lean ====
section
/-! SUPPORT. The shared operations, each said once: what a read of a control register returns, how a program runs, and
all that dispatch can answer. -/

namespace Sys2Proof.Machine

/-! ### The device -/

/-- A control register reads as the byte it holds (R53 item 2). -/
theorem State.devByte_control {s : State} (h : s.cfg.wf = true) {r : Byte} (hr : r ∈ s.cfg.controlAddrs) (d : Byte) :
    s.devByte r d = Memory.read s.regs r.toNat := by
  obtain ⟨h1, h2⟩ := Cfg.wf_control h r hr
  simp [devByte, h1, h2]

/-- The identity register reads as the identity byte (R53 item 4). -/
theorem State.devByte_identity (s : State) (d : Byte) : s.devByte s.cfg.regWhoAmI d = s.identity := by
  simp [devByte]

/-- A data or status register reads as a draw (R53 item 5). -/
theorem State.devByte_draw {s : State} (h : s.cfg.wf = true) {r : Byte} (hr : r ∈ s.cfg.drawAddrs) (d : Byte) :
    s.devByte r d = d := by
  have hn := Cfg.wf_addrs_nodup h
  have : r ≠ s.cfg.regWhoAmI := fun e => (List.nodup_cons.1 hn).1 (e ▸ hr)
  simp [devByte, this, hr]

/-- A transaction keeps the canonical form of the registers. -/
theorem State.regsAfter_wf (s : State) (op : TxOp) (ok landed : Bool) (h : Memory.wf s.regs) :
    Memory.wf (s.regsAfter op ok landed) := by
  cases op with
  | readOne r => exact h
  | readBurst r => exact h
  | writeOne r v =>
    simp only [regsAfter]
    split
    · exact Memory.write_byte_wf _ _ _ h
    · exact h

/-! ### Running a program -/

@[simp] theorem Prog.run_finish (st : Status) (d : Word) (s : State) : (Prog.finish st d).run s = s.finish st d := rfl
@[simp] theorem Prog.run_setReady (b : Bool) (p : Prog) (s : State) :
    (Prog.setReady b p).run s = p.run (s.setReady b) := rfl
@[simp] theorem Prog.run_bump (k : Counter) (p : Prog) (s : State) : (Prog.bump k p).run s = p.run (s.bump k) := rfl

/-- A transaction whose answer stands next. -/
theorem Prog.run_xfer_answer (op : TxOp) (k : Reply → Prog) (s : State) (a : Answer) (rest : List Input)
    (h : s.inputs = .answer a :: rest) :
    (Prog.xfer op k).run s = (k (s.reply op a)).run (s.transact op a) := by
  simp [run, h]

/-- A transaction whose answer does not stand next: the request is out and the engine waits. -/
theorem Prog.run_xfer_wait (op : TxOp) (k : Reply → Prog) (s : State)
    (h : ∀ a, s.inputs.head? ≠ some (.answer a)) : (Prog.xfer op k).run s = s.issue op := by
  rcases hi : s.inputs with _ | ⟨e, rest⟩
  · simp [run, hi]
  · cases e with
    | answer a => exact absurd (by simp [hi]) (h a)
    | hostRead w off => simp [run, hi]
    | hostWrite w off v => simp [run, hi]
    | engineReset l => simp [run, hi]
    | deviceWrite a v => simp [run, hi]

/-- The next input answers a transaction, or it does not. -/
theorem State.answer_or_wait (s : State) :
    (∃ a rest, s.inputs = .answer a :: rest) ∨ ∀ a, s.inputs.head? ≠ some (.answer a) := by
  rcases hi : s.inputs with _ | ⟨e, rest⟩
  · exact .inr fun a h => by simp at h
  · cases e with
    | answer a => exact .inl ⟨a, rest, rfl⟩
    | hostRead w off => exact .inr fun a h => by simp at h
    | hostWrite w off v => exact .inr fun a h => by simp at h
    | engineReset l => exact .inr fun a h => by simp at h
    | deviceWrite a v => exact .inr fun a h => by simp at h

/-- What holds of a state and is kept by each of a program's own steps holds after it has run: the induction over
programs, done once. -/
theorem Prog.run_induct {P : State → Prop}
    (hready : ∀ s b, P s → P (s.setReady b)) (hbump : ∀ s k, P s → P (s.bump k))
    (hissue : ∀ s op, P s → P (s.issue op))
    (hanswer : ∀ s op a rest, s.inputs = .answer a :: rest → P s → P (s.transact op a))
    (hfinish : ∀ s st d, P s → P (s.finish st d)) :
    ∀ (p : Prog) (s : State), P s → P (p.run s) := by
  intro p
  induction p with
  | finish st d => intro s h; exact hfinish s st d h
  | setReady b p ih => intro s h; exact ih _ (hready s b h)
  | bump k p ih => intro s h; exact ih _ (hbump s k h)
  | xfer op k ih =>
    intro s h
    rcases s.answer_or_wait with ⟨a, rest, hi⟩ | hw
    · rw [run_xfer_answer op k s a rest hi]
      exact ih _ _ (hanswer s op a rest hi h)
    · rw [run_xfer_wait op k s hw]
      exact hissue s op h

/-- Running a program changes neither `CMD`, the identity, the configuration nor the host port's reply. -/
theorem Prog.run_keeps (p : Prog) (s : State) :
    (p.run s).cmd = s.cmd ∧ (p.run s).identity = s.identity ∧ (p.run s).cfg = s.cfg ∧
    (p.run s).hostReply = s.hostReply :=
  Prog.run_induct (P := fun t => t.cmd = s.cmd ∧ t.identity = s.identity ∧ t.cfg = s.cfg ∧ t.hostReply = s.hostReply)
    (fun _ _ h => h) (fun _ k h => by simpa using h) (fun _ _ h => h) (fun _ _ _ _ _ h => h) (fun _ _ _ h => h) p s
    ⟨rfl, rfl, rfl, rfl⟩

/-- Running a program keeps the registers canonical. -/
theorem Prog.run_wf (p : Prog) (s : State) (h : Memory.wf s.regs) : Memory.wf (p.run s).regs :=
  Prog.run_induct (P := fun t => Memory.wf t.regs) (fun _ _ h => h) (fun _ k h => by simpa using h) (fun _ _ h => h)
    (fun t op a _ _ h => by simpa using t.regsAfter_wf op a.ok a.landed h) (fun _ _ _ h => h) p s h

/-- How a program that has run stands: waiting, with its request out and nothing reported yet (R54), or completed, with a
status and a data word reported and the engine idle (R13, R278). -/
theorem Prog.run_waits_or_completes (p : Prog) (s : State) :
    (∃ q, (p.run s).pending = some q ∧ (p.run s).busy = s.busy ∧ (p.run s).res = s.res ∧ (p.run s).data = s.data) ∨
    (∃ st, (p.run s).pending = none ∧ (p.run s).temps = [] ∧ (p.run s).busy = false ∧ (p.run s).res = Status.code st) := by
  induction p generalizing s with
  | finish st d => exact .inr ⟨st, rfl, rfl, rfl, rfl⟩
  | setReady b p ih => simpa using ih (s.setReady b)
  | bump k p ih => simpa using ih (s.bump k)
  | xfer op k ih =>
    rcases s.answer_or_wait with ⟨a, rest, hi⟩ | hw
    · rw [run_xfer_answer op k s a rest hi]
      simpa using ih _ (s.transact op a)
    · rw [run_xfer_wait op k s hw]
      exact .inl ⟨_, rfl, rfl, rfl, rfl⟩

/-! ### The helpers of the pseudocode, each with all it can do -/

/-- `ReadReg` waits, or ends the command on a failure, or goes on with the byte read (R63). -/
theorem readReg_run (r : Byte) (k : Byte → Prog) (s : State) :
    ((∀ a, s.inputs.head? ≠ some (.answer a)) ∧ (readReg r k).run s = s.issue (.readOne r)) ∨
    (∃ a rest, s.inputs = .answer a :: rest ∧ a.ok = false ∧
      (readReg r k).run s = (s.transact (.readOne r) a).finish .errTransport 0) ∨
    (∃ a rest, s.inputs = .answer a :: rest ∧ a.ok = true ∧
      (readReg r k).run s = (k (s.devByte r a.b0)).run (s.transact (.readOne r) a)) := by
  rcases s.answer_or_wait with ⟨a, rest, hi⟩ | hw
  · right
    cases ha : a.ok
    · exact .inl ⟨a, rest, hi, ha, by rw [readReg, Prog.run_xfer_answer _ _ _ _ _ hi]; simp [ha, raise]⟩
    · exact .inr ⟨a, rest, hi, ha, by
        rw [readReg, Prog.run_xfer_answer _ _ _ _ _ hi]; simp only [State.reply, ha, if_true]⟩
  · exact .inl ⟨hw, Prog.run_xfer_wait _ _ _ hw⟩

/-- `ReadReg` on a successful answer. -/
theorem readReg_run_ok {s : State} {a : Answer} {rest : List Input} (hi : s.inputs = .answer a :: rest) (ha : a.ok = true)
    (r : Byte) (k : Byte → Prog) :
    (readReg r k).run s = (k (s.devByte r a.b0)).run (s.transact (.readOne r) a) := by
  rw [readReg, Prog.run_xfer_answer _ _ _ _ _ hi]
  simp only [State.reply, ha, if_true]

/-- `WriteReg` waits, or ends the command on a failure, or goes on (R63). -/
theorem writeReg_run (r v : Byte) (k : Prog) (s : State) :
    ((∀ a, s.inputs.head? ≠ some (.answer a)) ∧ (writeReg r v k).run s = s.issue (.writeOne r v)) ∨
    (∃ a rest, s.inputs = .answer a :: rest ∧ a.ok = false ∧
      (writeReg r v k).run s = (s.transact (.writeOne r v) a).finish .errTransport 0) ∨
    (∃ a rest, s.inputs = .answer a :: rest ∧ a.ok = true ∧
      (writeReg r v k).run s = k.run (s.transact (.writeOne r v) a)) := by
  rcases s.answer_or_wait with ⟨a, rest, hi⟩ | hw
  · right
    cases ha : a.ok
    · exact .inl ⟨a, rest, hi, ha, by rw [writeReg, Prog.run_xfer_answer _ _ _ _ _ hi]; simp [ha, raise]⟩
    · exact .inr ⟨a, rest, hi, ha, by rw [writeReg, Prog.run_xfer_answer _ _ _ _ _ hi]; simp [ha]⟩
  · exact .inl ⟨hw, Prog.run_xfer_wait _ _ _ hw⟩

/-- `WriteReg` on a successful answer. -/
theorem writeReg_run_ok {s : State} {a : Answer} {rest : List Input} (hi : s.inputs = .answer a :: rest)
    (ha : a.ok = true) (r v : Byte) (k : Prog) :
    (writeReg r v k).run s = k.run (s.transact (.writeOne r v) a) := by
  rw [writeReg, Prog.run_xfer_answer _ _ _ _ _ hi]
  simp [ha]

/-- `UpdateFields` on two successful answers: one read, one write of the byte read with the fields put (R65). -/
theorem updateFields_run_ok {s : State} {a1 a2 : Answer} {rest : List Input}
    (hi : s.inputs = .answer a1 :: .answer a2 :: rest) (h1 : a1.ok = true) (h2 : a2.ok = true) (r : Byte)
    (fs : List (Field × Byte)) (k : Prog) :
    (updateFields r fs k).run s =
      k.run ((s.transact (.readOne r) a1).transact (.writeOne r (putFields (s.devByte r a1.b0) fs)) a2) := by
  rw [updateFields, readReg_run_ok hi h1, writeReg_run_ok (rest := rest) (by simp [hi]) h2]

/-- The raw-sample stage waits, or counts the failure and ends the command, or goes on with the sample, counting an
all-ones one (R232). -/
theorem rawStage_run (base : Byte) (ax : Axis) (k : Sample → Prog) (s : State) :
    let op := TxOp.readBurst (sampleAddr base ax)
    ((∀ a, s.inputs.head? ≠ some (.answer a)) ∧ (rawStage base ax k).run s = s.issue op) ∨
    (∃ a rest, s.inputs = .answer a :: rest ∧ a.ok = false ∧
      (rawStage base ax k).run s = ((s.transact op a).bump .other).finish .errTransport 0) ∨
    (∃ a rest, s.inputs = .answer a :: rest ∧ a.ok = true ∧
      (s.reply op a).lo = 0xFF ∧ (s.reply op a).hi = 0xFF ∧
      (rawStage base ax k).run s = (k (assemble (s.reply op a).lo (s.reply op a).hi)).run ((s.transact op a).bump .allOnes)) ∨
    (∃ a rest, s.inputs = .answer a :: rest ∧ a.ok = true ∧
      ¬((s.reply op a).lo = 0xFF ∧ (s.reply op a).hi = 0xFF) ∧
      (rawStage base ax k).run s = (k (assemble (s.reply op a).lo (s.reply op a).hi)).run (s.transact op a)) := by
  intro op
  rcases s.answer_or_wait with ⟨a, rest, hi⟩ | hw
  · right
    have hrun := Prog.run_xfer_answer op (fun r =>
      if r.ok then
        if r.lo = 0xFF ∧ r.hi = 0xFF then Prog.bump .allOnes (k (assemble r.lo r.hi)) else k (assemble r.lo r.hi)
      else Prog.bump .other (raise .errTransport)) s a rest hi
    cases ha : a.ok
    · left
      exact ⟨a, rest, hi, ha, by rw [rawStage, hrun]; simp [ha, raise]⟩
    · right
      by_cases hones : (s.reply op a).lo = 0xFF ∧ (s.reply op a).hi = 0xFF
      · left
        refine ⟨a, rest, hi, ha, hones.1, hones.2, ?_⟩
        rw [rawStage, hrun, State.reply_ok, if_pos ha, if_pos hones, Prog.run_bump]
      · right
        refine ⟨a, rest, hi, ha, hones, ?_⟩
        rw [rawStage, hrun, State.reply_ok, if_pos ha, if_neg hones]
  · exact .inl ⟨hw, Prog.run_xfer_wait _ _ _ hw⟩

/-- A sample's two registers are among those whose reads are draws (R104, R231). -/
theorem sampleAddr_mem_draw (c : Cfg) (ax : Axis) :
    sampleAddr c.outXlBase ax ∈ c.drawAddrs ∧ sampleAddr c.outXlBase ax + 1 ∈ c.drawAddrs ∧
    sampleAddr c.outGBase ax ∈ c.drawAddrs ∧ sampleAddr c.outGBase ax + 1 ∈ c.drawAddrs := by
  cases ax <;> simp [sampleAddr, Axis.index, Cfg.drawAddrs, BitVec.add_assoc]

/-- A burst at two draw registers returns the two bytes drawn, auto-increment or not (R53 item 5, R56, U4). -/
theorem reply_burst_draw {s : State} (h : s.cfg.wf = true) {r : Byte} (h0 : r ∈ s.cfg.drawAddrs)
    (h1 : r + 1 ∈ s.cfg.drawAddrs) (a : Answer) : s.reply (.readBurst r) a = ⟨a.ok, a.b0, a.b1⟩ := by
  simp only [State.reply, State.devByte_draw h h0, State.devByte_draw h h1, ite_self]

/-! ### Dispatch -/

/-- All that dispatch can answer (R89): one of the two rejections, or the command's rule run. -/
theorem launch_cases {α : Type} {o : Option α} {needs : Bool} {k : α → Prog} {s t : State}
    (h : launch o needs k s = .next t) :
    (o = none ∧ t = s.fresh.finish .errInvalid 0) ∨
    (o.isSome = true ∧ needs = true ∧ s.ready = false ∧ t = s.fresh.finish .errNotReady 0) ∨
    (∃ v, o = some v ∧ (needs = true → s.ready = true) ∧ t = (k v).run s.fresh) := by
  unfold launch at h
  cases o with
  | none => exact .inl ⟨rfl, by simpa using h.symm⟩
  | some v =>
    by_cases hr : (needs && !s.ready) = true
    · simp only [hr, if_true] at h
      simp only [Bool.and_eq_true, Bool.not_eq_true'] at hr
      exact .inr (.inl ⟨rfl, hr.1, hr.2, by simpa using h.symm⟩)
    · simp only [hr] at h
      refine .inr (.inr ⟨v, rfl, fun hn => ?_, by simpa using h.symm⟩)
      cases hs : s.ready <;> simp_all

/-- Dispatch never stops the machine. -/
theorem launch_next {α : Type} (o : Option α) (needs : Bool) (k : α → Prog) (s : State) :
    ∃ t, launch o needs k s = .next t := by
  unfold launch
  cases o with
  | none => exact ⟨_, rfl⟩
  | some v =>
    cases hr : (needs && !s.ready)
    · exact ⟨_, rfl⟩
    · exact ⟨_, rfl⟩

end Sys2Proof.Machine
end

