-- ==== Sys2Proof/Laws/Step.lean ====
section
/-! SUPPORT. All that one step can do, event by event, and all that an answer and a command word can do. -/

namespace Sys2Proof.Machine

/-- All that a step that answers a next state can have done (10_state.md R20, 20_memory.md R50 to R54,
70_reset_and_hazards.md R303, R310). -/
theorem step_cases {s t : State} (h : step s = .next t) : s.cfg.wf = true ∧
    ((s.inputs = [] ∧ t = s) ∨
     (∃ a rest, s.inputs = .answer a :: rest ∧ t = resume a s) ∨
     (∃ width off rest, s.inputs = .hostRead width off :: rest ∧ hostAccessOk width off = true ∧
        t = s.drop.deliver (hostLoad s off)) ∨
     (∃ width off v rest, s.inputs = .hostWrite width off v :: rest ∧ hostAccessOk width off = true ∧
        ¬(off = 0 ∧ s.busy = false) ∧ t = s.drop) ∨
     (∃ width v rest, s.inputs = .hostWrite width 0 v :: rest ∧ hostAccessOk width 0 = true ∧ s.busy = false ∧
        startCommand exec v s.drop = .next t) ∨
     (∃ landed rest, s.inputs = .engineReset landed :: rest ∧ t = s.drop.engineReset landed) ∨
     (∃ a v rest, s.inputs = .deviceWrite a v :: rest ∧ t = s.drop.deviceWrite a v)) := by
  unfold step stepEvent at h
  by_cases hc : s.cfg.wf = true
  · refine ⟨hc, ?_⟩
    simp only [hc, if_true] at h
    rcases hi : s.inputs with _ | ⟨e, rest⟩
    · rw [hi] at h
      exact .inl ⟨rfl, by simpa using h.symm⟩
    · rw [hi] at h
      cases e with
      | answer a => exact .inr (.inl ⟨a, rest, rfl, by simpa using h.symm⟩)
      | hostRead width off =>
        cases ha : hostAccessOk width off
        · simp [ha] at h
        · exact .inr (.inr (.inl ⟨width, off, rest, rfl, ha, by simpa [ha] using h.symm⟩))
      | hostWrite width off v =>
        cases ha : hostAccessOk width off
        · simp [ha] at h
        · simp only [ha, if_true, hostStore] at h
          by_cases hb : off = 0 ∧ s.drop.busy = false
          · rw [if_pos hb] at h
            obtain ⟨rfl, hb⟩ := hb
            exact .inr (.inr (.inr (.inr (.inl ⟨width, v, rest, rfl, ha, hb, h⟩))))
          · rw [if_neg hb] at h
            exact .inr (.inr (.inr (.inl ⟨width, off, v, rest, rfl, ha, hb, by simpa using h.symm⟩)))
      | engineReset landed =>
        exact .inr (.inr (.inr (.inr (.inr (.inl ⟨landed, rest, rfl, by simpa using h.symm⟩)))))
      | deviceWrite a v =>
        exact .inr (.inr (.inr (.inr (.inr (.inr ⟨a, v, rest, rfl, by simpa using h.symm⟩)))))
  · simp [hc] at h

/-- All that an answer can do: nothing with no transaction outstanding; otherwise the transaction takes effect and the
command in `CMD` goes on (R53, R54). -/
theorem resume_cases (a : Answer) (s : State) :
    (s.pending = none ∧ resume a s = s.drop) ∨
    (∃ q i, s.pending = some q ∧ decode s.cmd = .ok i ∧
      resume a s = ((progOf i s).after (s.temps ++ [s.reply q.op a])).run (s.answered q.op a)) ∨
    (∃ q e, s.pending = some q ∧ decode s.cmd = .error e ∧
      resume a s = (s.answered q.op a).finish .errIllegalOp 0) := by
  unfold resume
  rcases hp : s.pending with _ | q
  · exact .inl ⟨rfl, rfl⟩
  · cases hd : decode s.cmd with
    | ok i => exact .inr (.inl ⟨q, i, rfl, rfl, rfl⟩)
    | error e => exact .inr (.inr ⟨q, e, rfl, rfl, rfl⟩)

/-- All that an accepted word can do: the opcode check, then the command (R89). -/
theorem startCommand_cases (run : Instr → State → Host.Outcome State Fault Refusal) (w : Word) (s : State) :
    (∃ i, decode w = .ok i ∧ startCommand run w s = run i (s.accept w)) ∨
    (∃ e, decode w = .error e ∧ startCommand run w s = .next ((s.accept w).fresh.finish .errIllegalOp 0)) := by
  unfold startCommand
  cases decode w with
  | ok i => exact .inl ⟨i, rfl, rfl⟩
  | error e => exact .inr ⟨e, rfl, rfl⟩

/-- What is left of a program after one more reply is what its next transaction is followed by. -/
theorem Prog.after_append (p : Prog) (rs qs : List Reply) : p.after (rs ++ qs) = (p.after rs).after qs := by
  induction p generalizing rs with
  | finish st d => cases rs with
    | nil => rfl
    | cons r rs => cases qs <;> simp [after]
  | setReady b p ih => cases rs with
    | nil => rfl
    | cons r rs => simpa [after] using ih (r :: rs)
  | bump k p ih => cases rs with
    | nil => rfl
    | cons r rs => simpa [after] using ih (r :: rs)
  | xfer op k ih => cases rs with
    | nil => rfl
    | cons r rs => simpa [after] using ih r rs

/-- The meaning of every command is dispatch followed by its program: `exec` by its shared operation. -/
theorem exec_eq_launch (i : Instr) (s : State) :
    ∃ (α : Type) (o : Option α) (k : α → Prog),
      exec i s = launch o i.needsReady k s ∧ progOf i s = onOperand o k := by
  cases i <;> exact ⟨_, _, _, rfl, rfl⟩

end Sys2Proof.Machine
end

