-- ==== Sys2Proof/Tests/Slice0.lean ====
section
/-! SUPPORT. The model's own tests: decoding, well-formedness, one step of each command on the vectors of
95_test_vectors.md (named at each test), and for every statement with hypotheses a state that meets them. -/

namespace Sys2Proof.Tests

open Sys2Proof Sys2Proof.Machine

/-! ### Helpers -/

/-- A successful answer with two drawn bytes. -/
def ok (b0 : Byte := 0) (b1 : Byte := 0) : Input := .answer ⟨true, b0, b1, false⟩

/-- A failed answer. -/
def fail (landed : Bool := false) : Input := .answer ⟨false, 0, 0, landed⟩

/-- A busy, ready machine with some device registers and some inputs. -/
def busy (regs : List Host.Cell) (inputs : List Input) : State :=
  { State.reset with busy := true, ready := true, regs := regs, inputs := inputs }

/-- An idle, ready machine with some inputs. -/
def idle (inputs : List Input) : State := { State.reset with ready := true, inputs := inputs }

/-- What is asked of the next state holds of it. -/
def holds (o : Host.Outcome State Fault Refusal) (p : State → Bool) : Bool :=
  match o with
  | .next t => p t
  | .fault _ | .refused _ => false

/-- The step is refused with this reason. -/
def refusedWith (o : Host.Outcome State Fault Refusal) (r : Refusal) : Bool :=
  match o with
  | .refused q => q == r
  | .next _ | .fault _ => false

/-- A command completed with a status, a data word and a number of transactions, leaving these registers. -/
def ends (o : Host.Outcome State Fault Refusal) (code : BitVec 4) (d : Word) (regs : List Host.Cell) (n : Nat) : Bool :=
  holds o fun t => t.res == code && t.data == d && t.regs == regs && t.tx.length == n && !t.busy

/-! ### Decoding: one word per command, opcode of R81 in bits 31:24, operand in bits 23:0 (R80) -/

/-- Words of the system family. -/
theorem test_decode_system :
    decode 0x01000000 = .ok (.init 0) ∧
    decode 0x50000000 = .ok (.getDrdy 0) ∧
    decode 0x60000000 = .ok (.getAllones 0) ∧
    decode 0x61000000 = .ok (.getOtherfail 0) := by decide

/-- Words of the accel family. -/
theorem test_decode_accel :
    decode 0x10000008 = .ok (.setXlRange 8) ∧
    decode 0x11000000 = .ok (.getXlRange 0) ∧
    decode 0x12010428 = .ok (.setXlOdr 66600) ∧
    decode 0x13000000 = .ok (.getXlOdr 0) ∧
    decode 0x14000001 = .ok (.setXlHp 1) ∧
    decode 0x15000000 = .ok (.getXlHp 0) ∧
    decode 0x16000001 = .ok (.setXlEn 1) ∧
    decode 0x17000000 = .ok (.getXlEn 0) ∧
    decode 0x18000001 = .ok (.setXlFsmode 1) ∧
    decode 0x19000000 = .ok (.getXlFsmode 0) := by decide

/-- Words of the gyro family. -/
theorem test_decode_gyro :
    decode 0x200007D0 = .ok (.setGRange 2000) ∧
    decode 0x21000000 = .ok (.getGRange 0) ∧
    decode 0x22000410 = .ok (.setGOdr 1040) ∧
    decode 0x23000000 = .ok (.getGOdr 0) ∧
    decode 0x24000001 = .ok (.setGHp 1) ∧
    decode 0x25000000 = .ok (.getGHp 0) ∧
    decode 0x26000001 = .ok (.setGEn 1) ∧
    decode 0x27000000 = .ok (.getGEn 0) := by decide

/-- Words of the common family. -/
theorem test_decode_common :
    decode 0x30000001 = .ok (.setBdu 1) ∧
    decode 0x31000000 = .ok (.getBdu 0) ∧
    decode 0x32000001 = .ok (.setEmb 1) ∧
    decode 0x33000000 = .ok (.getEmb 0) := by decide

/-- Words of the sample family. -/
theorem test_decode_sample :
    decode 0x40000002 = .ok (.readXl 2) ∧
    decode 0x41000002 = .ok (.readG 2) ∧
    decode 0x48000002 = .ok (.readRawXl 2) ∧
    decode 0x49000002 = .ok (.readRawG 2) := by decide

/-- A word read bit by bit (R80): `READ_G Z` is opcode 0100 0001, operand 2. -/
theorem test_decode_bits : decode 0b01000001000000000000000000000010 = .ok (.readG 2) := by decide

/-- The first and last word of some gaps of the opcode map (R87). -/
theorem test_decode_illegal :
    [0x00000000, 0x02000000, 0x0FFFFFFF, 0x1A000005, 0x28000000, 0x34000000, 0x42000000, 0x4A000000, 0x51000000,
      0x62000000, 0xFF000000].all
      (fun w => match decode w with | .ok _ => false | .error e => e == .illegalOpcode (opcodeOf w)) = true := by decide

/-- The table word of a row, and a word that is none (R91). -/
theorem test_decode_table_word :
    decodeTableWord 32 0x10000008 = some (.setXlRange 8) ∧ decodeTableWord 32 0x7F000000 = none := by decide

/-- The encoder writes the words of R92's examples. -/
theorem test_encode : encode (.setXlRange 8) = 0x10000008 ∧ encode (.setXlOdr 16) = 0x12000010 ∧
    encode (.readG 2) = 0x41000002 ∧ encode (.init 0) = 0x01000000 := by decide

/-- Lines of program P4 and the vectors (R92): a name, a rate in Hz, a raw operand, a comment, no mnemonic. -/
theorem test_assemble :
    assembleLine "SET_XL_HP off".toList = some 0x14000000 ∧ assembleLine "SET_XL_ODR 1.6".toList = some 0x12000010 ∧
    assembleLine "SET_G_RANGE #300".toList = some 0x2000012C ∧
    assembleLine "READ_XL Y ; comment".toList = some 0x40000001 ∧ assembleLine "MOVE 1".toList = none := by decide

/-! ### Well-formedness -/

/-- An operand outside its class, one per class, and the greatest inside it (R82). -/
theorem test_wf_operands :
    (Instr.init 1).wf = false ∧ (Instr.setBdu 2).wf = false ∧ (Instr.readXl 3).wf = false ∧
    (Instr.setXlRange 3).wf = false ∧ (Instr.setGRange 126).wf = false ∧ (Instr.setXlOdr 17).wf = false ∧
    (Instr.setGOdr 16).wf = false ∧ (Instr.init 0).wf = true ∧ (Instr.setBdu 1).wf = true ∧
    (Instr.readXl 2).wf = true ∧ (Instr.setXlRange 16).wf = true ∧ (Instr.setGRange 2000).wf = true ∧
    (Instr.setXlOdr 66600).wf = true ∧ (Instr.setGOdr 66600).wf = true := by decide

/-- The default configuration meets R97; each of the nine conditions refuses a configuration that breaks it. -/
theorem test_wf_cfg :
    let c := Cfg.default
    c.wf = true ∧
    { c with fEmb := ⟨0x01, 8, 1, false⟩ }.wfShape = false ∧ { c with fXlFs := ⟨0x10, 2, 2, true⟩ }.wfShape = false ∧
    { c with fXlFs := ⟨0x10, 2, 1, false⟩ }.wfWidths = false ∧
    { c with regFsm := 0x10, fXlFsmode := ⟨0x10, 1, 1, false⟩ }.wfRegs = false ∧
    { c with fXlFs := ⟨0x10, 3, 2, false⟩ }.wfDisjoint = false ∧
    { c with odrCodeG := { c.odrCodeG with hz26 := 1 } }.wfCodes = false ∧
    { c with odrCodeXl := { c.odrCodeXl with hz26 := 0x10 } }.wfCodes = false ∧
    { c with enableOdrXl := .hz1_6 }.wfEnable = false ∧ { c with enableOdrG := .off }.wfEnable = false ∧
    { c with outXlBase := 0xFB }.wfBases = false ∧
    { c with regStatus := 0x10 }.wfAddrs = false ∧ { c with regStatus := 0x2A }.wfAddrs = false ∧
    { c with cntWidth := 0 }.wfWidth = false ∧ { c with cntWidth := 33 }.wfWidth = false := by decide

/-! ### One step of each command -/

/-- T-XL: foreign bits kept; 16g in the two modes. -/
theorem test_set_xl_range :
    ends (exec (.setXlRange 8) (busy [(0x10, 0xF3)] [ok, ok])) 0 0 [(0x10, 0xFF)] 2 = true ∧
    ends (exec (.setXlRange 16) (busy [(0x10, 0xF3)] [ok, ok, ok])) 0 0 [(0x10, 0xF7)] 3 = true := by decide

/-- T-SRC-3, T-XL: the downgrade in extended mode; fail 1 ends at the mode read. -/
theorem test_set_xl_range_extended :
    ends (exec (.setXlRange 16) (busy [(0x10, 0xF3), (0x17, 0x02)] [ok, ok, ok])) 0 0 [(0x10, 0xFF), (0x17, 0x02)] 3 = true ∧
    ends (exec (.setXlRange 16) (busy [(0x17, 0x02)] [fail])) 1 0 [(0x17, 0x02)] 1 = true := by decide

/-- T-SRC-9: code 1 in the two modes. -/
theorem test_get_xl_range :
    ends (exec (.getXlRange 0) (busy [(0x10, 0x04)] [ok, ok])) 0 16 [(0x10, 0x04)] 2 = true ∧
    ends (exec (.getXlRange 0) (busy [(0x10, 0x04), (0x17, 0x02)] [ok, ok])) 0 2 [(0x10, 0x04), (0x17, 0x02)] 2 = true := by decide

/-- T-XL: 1.6 Hz with high-performance enabled and disabled. -/
theorem test_set_xl_odr :
    ends (exec (.setXlOdr 16) (busy [(0x10, 0x0F)] [ok, ok, ok])) 0 0 [(0x10, 0xBF)] 3 = true ∧
    ends (exec (.setXlOdr 16) (busy [(0x10, 0x0F), (0x15, 0x10)] [ok, ok, ok])) 0 0 [(0x10, 0x1F), (0x15, 0x10)] 3 = true := by decide

/-- T-XL, T-DIS: 6660 Hz; 17 dHz is no rate. -/
theorem test_set_xl_odr_plain :
    ends (exec (.setXlOdr 66600) (busy [(0x10, 0x0F)] [ok, ok])) 0 0 [(0x10, 0xAF)] 2 = true ∧
    ends (exec (.setXlOdr 17) (busy [] [ok, ok])) 2 0 [] 0 = true := by decide

/-- T-XL: code 0xB is 1.6 Hz, code 0xC is no rate. -/
theorem test_get_xl_odr :
    ends (exec (.getXlOdr 0) (busy [(0x10, 0xB0)] [ok])) 0 16 [(0x10, 0xB0)] 1 = true ∧
    ends (exec (.getXlOdr 0) (busy [(0x10, 0xC0)] [ok])) 6 0 [(0x10, 0xC0)] 1 = true := by decide

/-- T-XL: the inverted bit. -/
theorem test_xl_hp :
    ends (exec (.setXlHp 1) (busy [(0x15, 0xFF)] [ok, ok])) 0 0 [(0x15, 0xEF)] 2 = true ∧
    ends (exec (.setXlHp 0) (busy [(0x15, 0xEF)] [ok, ok])) 0 0 [(0x15, 0xFF)] 2 = true ∧
    ends (exec (.getXlHp 0) (busy [(0x15, 0xEF)] [ok])) 0 1 [(0x15, 0xEF)] 1 = true := by decide

/-- T-XL: on from off, on while on, off, and the getter on a meaningless code. -/
theorem test_xl_en :
    ends (exec (.setXlEn 1) (busy [(0x10, 0x0C)] [ok, ok])) 0 0 [(0x10, 0x4C)] 2 = true ∧
    ends (exec (.setXlEn 1) (busy [(0x10, 0xF3)] [ok, ok])) 0 0 [(0x10, 0xF3)] 1 = true ∧
    ends (exec (.setXlEn 0) (busy [(0x10, 0xF3)] [ok, ok])) 0 0 [(0x10, 0x03)] 2 = true ∧
    ends (exec (.getXlEn 0) (busy [(0x10, 0xF3)] [ok])) 0 1 [(0x10, 0xF3)] 1 = true := by decide

/-- T-XL: the full-scale mode. -/
theorem test_xl_fsmode :
    ends (exec (.setXlFsmode 1) (busy [(0x17, 0xFD)] [ok, ok])) 0 0 [(0x17, 0xFF)] 2 = true ∧
    ends (exec (.setXlFsmode 0) (busy [(0x17, 0xFF)] [ok, ok])) 0 0 [(0x17, 0xFD)] 2 = true ∧
    ends (exec (.getXlFsmode 0) (busy [(0x17, 0xFD)] [ok])) 0 0 [(0x17, 0xFD)] 1 = true := by decide

/-- T-G: ranges from 0xF1; the flag hides the code. -/
theorem test_g_range :
    ends (exec (.setGRange 125) (busy [(0x11, 0xF1)] [ok, ok])) 0 0 [(0x11, 0xF3)] 2 = true ∧
    ends (exec (.setGRange 2000) (busy [(0x11, 0xF1)] [ok, ok])) 0 0 [(0x11, 0xFD)] 2 = true ∧
    ends (exec (.getGRange 0) (busy [(0x11, 0x0E)] [ok])) 0 125 [(0x11, 0x0E)] 1 = true ∧
    ends (exec (.getGRange 0) (busy [(0x11, 0x0C)] [ok])) 0 2000 [(0x11, 0x0C)] 1 = true := by decide

/-- T-G: rates from 0xF1; code 0xB is no gyroscope rate; nor is 1.6 Hz. -/
theorem test_g_odr :
    ends (exec (.setGOdr 66600) (busy [(0x11, 0xF1)] [ok, ok])) 0 0 [(0x11, 0xA1)] 2 = true ∧
    ends (exec (.setGOdr 16) (busy [(0x11, 0xF1)] [ok, ok])) 2 0 [(0x11, 0xF1)] 0 = true ∧
    ends (exec (.getGOdr 0) (busy [(0x11, 0xA0)] [ok])) 0 66600 [(0x11, 0xA0)] 1 = true ∧
    ends (exec (.getGOdr 0) (busy [(0x11, 0xB0)] [ok])) 6 0 [(0x11, 0xB0)] 1 = true := by decide

/-- T-G: the inverted bit. -/
theorem test_g_hp :
    ends (exec (.setGHp 1) (busy [(0x16, 0xFF)] [ok, ok])) 0 0 [(0x16, 0x7F)] 2 = true ∧
    ends (exec (.setGHp 0) (busy [(0x16, 0x7F)] [ok, ok])) 0 0 [(0x16, 0xFF)] 2 = true ∧
    ends (exec (.getGHp 0) (busy [(0x16, 0x80)] [ok])) 0 0 [(0x16, 0x80)] 1 = true := by decide

/-- T-G: on from off, on while on, off. -/
theorem test_g_en :
    ends (exec (.setGEn 1) (busy [(0x11, 0x0E)] [ok, ok])) 0 0 [(0x11, 0x4E)] 2 = true ∧
    ends (exec (.setGEn 1) (busy [(0x11, 0x5E)] [ok, ok])) 0 0 [(0x11, 0x5E)] 1 = true ∧
    ends (exec (.setGEn 0) (busy [(0x11, 0xF1)] [ok, ok])) 0 0 [(0x11, 0x01)] 2 = true ∧
    ends (exec (.getGEn 0) (busy [(0x11, 0x0E)] [ok])) 0 0 [(0x11, 0x0E)] 1 = true := by decide

/-- T-COM: block data update. -/
theorem test_bdu :
    ends (exec (.setBdu 1) (busy [(0x12, 0xBF)] [ok, ok])) 0 0 [(0x12, 0xFF)] 2 = true ∧
    ends (exec (.setBdu 0) (busy [(0x12, 0xFF)] [ok, ok])) 0 0 [(0x12, 0xBF)] 2 = true ∧
    ends (exec (.getBdu 0) (busy [(0x12, 0xFF)] [ok])) 0 1 [(0x12, 0xFF)] 1 = true := by decide

/-- T-COM: embedded functions. -/
theorem test_emb :
    ends (exec (.setEmb 1) (busy [(0x01, 0x7F)] [ok, ok])) 0 0 [(0x01, 0xFF)] 2 = true ∧
    ends (exec (.setEmb 0) (busy [(0x01, 0xFF)] [ok, ok])) 0 0 [(0x01, 0x7F)] 2 = true ∧
    ends (exec (.getEmb 0) (busy [(0x01, 0x7F)] [ok])) 0 0 [(0x01, 0x7F)] 1 = true := by decide

/-- T-FP-5: raw 16384 in the two modes. -/
theorem test_read_xl :
    ends (exec (.readXl 2) (busy [(0x10, 0x04)] [ok 0x00 0x40, ok, ok])) 0 0x40FFDA40 [(0x10, 0x04)] 3 = true ∧
    ends (exec (.readXl 2) (busy [(0x10, 0x04), (0x17, 0x02)] [ok 0x00 0x40, ok, ok])) 0 0x3F7FDA40 [(0x10, 0x04), (0x17, 0x02)] 3 = true := by decide

/-- T-FP-6: an all-ones sample is counted although the configuration read fails; a failed burst. -/
theorem test_read_xl_fails :
    holds (exec (.readXl 0) (busy [] [ok 0xFF 0xFF, fail])) (fun t => t.res == 1 && t.cntAllOnes == 1 && t.cntOther == 0) = true ∧
    holds (exec (.readXl 0) (busy [] [fail])) (fun t => t.res == 1 && t.tx.length == 1 && t.cntOther == 1) = true := by decide

/-- T-FP-4: raw -32768 at 2000 dps, raw -1000 at 500 dps. -/
theorem test_read_g :
    ends (exec (.readG 2) (busy [(0x11, 0x0C)] [ok 0x00 0x80, ok])) 0 0xC50F5C29 [(0x11, 0x0C)] 2 = true ∧
    ends (exec (.readG 1) (busy [(0x11, 0x04)] [ok 0x18 0xFC, ok])) 0 0xC18C0000 [(0x11, 0x04)] 2 = true := by decide

/-- T-RAW: the burst address of Z, and a sign extension. -/
theorem test_read_raw_xl :
    holds (exec (.readRawXl 2) (busy [] [ok 0x00 0x80])) (fun t => t.data == 0xFFFF8000 && t.tx == [⟨0x6B, .readBurst 0x2C⟩]) = true ∧
    holds (exec (.readRawXl 0) (busy [] [ok 0xFF 0xFF])) (fun t => t.data == 0xFFFFFFFF && t.cntAllOnes == 1) = true := by decide

/-- T-RAW: the burst address of Y, low byte first; an all-ones high byte alone is not counted. -/
theorem test_read_raw_g :
    holds (exec (.readRawG 1) (busy [] [ok 0xFF 0x00])) (fun t => t.data == 0x000000FF && t.tx == [⟨0x6B, .readBurst 0x24⟩]) = true ∧
    holds (exec (.readRawG 1) (busy [] [ok 0xFE 0xFF])) (fun t => t.data == 0xFFFFFFFE && t.cntAllOnes == 0) = true := by decide

/-- T-SYS: other bits kept, the read identity in DATA; a mismatch. -/
theorem test_init :
    holds (exec (.init 0) (busy [(0x12, 0xB8)] [ok, ok, ok])) (fun t => t.res == 0 && t.data == 0x6C && t.regs == [(0x12, 0xBC)] && t.ready) = true ∧
    holds (exec (.init 0) { busy [] [ok] with identity := 0x6A }) (fun t => t.res == 5 && t.data == 0x6A && t.tx.length == 1 && !t.ready) = true := by decide

/-- T-SYS, T-DIS: fail 3 with the new byte, READY cleared; an operand that is not 0 leaves READY. -/
theorem test_init_fails :
    holds (exec (.init 0) (busy [(0x12, 0xB8)] [ok, ok, fail true])) (fun t => t.res == 1 && t.regs == [(0x12, 0xBC)] && !t.ready) = true ∧
    holds (exec (.init 1) (busy [] [ok])) (fun t => t.res == 2 && t.tx == [] && t.ready) = true := by decide

/-- T-SYS: the mask; T-DIS: it needs READY. -/
theorem test_get_drdy :
    ends (exec (.getDrdy 0) (busy [] [ok 0xFF])) 0 3 [] 1 = true ∧
    ends (exec (.getDrdy 0) { busy [] [ok] with ready := false }) 4 0 [] 0 = true := by decide

/-- T-SYS, T-DIS: the counters, without READY. -/
theorem test_get_counters :
    ends (exec (.getAllones 0) { busy [] [] with cntAllOnes := 5, ready := false }) 0 5 [] 0 = true ∧
    ends (exec (.getOtherfail 0) { busy [] [] with cntOther := 0xFFFFFFFF, ready := false }) 0 0xFFFFFFFF [] 0 = true := by decide

/-- T-CNT: a 2-bit counter stops at 3, the default width at 0xFFFFFFFF. -/
theorem test_saturation :
    [(2, 3), (3, 3)].all (fun p => holds (exec (.readRawXl 0) { busy [] [ok 0xFF 0xFF] with cntAllOnes := p.1, cfg := { Cfg.default with cntWidth := 2 } }) (fun t => t.cntAllOnes == p.2)) = true ∧
    holds (exec (.readRawXl 0) { busy [] [fail] with cntOther := 0xFFFFFFFF }) (fun t => t.cntOther == 0xFFFFFFFF) = true := by decide

/-- T-FP, T-FP-7: the extremes and one input on which the two evaluation modes differ. -/
theorem test_scale :
    scale .binary64 0x7FFF 70000 = 0x450F5B0A ∧
    scale .binary64 1 61 = 0x387FDA40 ∧
    scale .binary32 1 61 = 0x387FDA41 ∧
    scale .binary64 0xFC18 61 = 0xBD79DB23 := by decide

/-! ### Steps -/

/-- T-DIS: illegal before invalid before not ready. -/
theorem test_step_dispatch :
    ends (step { idle [.hostWrite 32 0 0x1A000005] with ready := false }) 3 0 [] 0 = true ∧
    ends (step { idle [.hostWrite 32 0 0x10000020] with ready := false }) 2 0 [] 0 = true ∧
    ends (step { idle [.hostWrite 32 0 0x200000FA] with ready := false }) 4 0 [] 0 = true := by decide

/-- T-DIS, host interface (R50 to R52): CSR after INIT; a write to CMD while busy; a halfword is refused. -/
theorem test_step_host_port :
    holds (step (idle [.hostRead 32 0xC])) (fun t => t.hostReply == some 2) = true ∧
    holds (step (busy [] [.hostWrite 32 0 0x10000008])) (fun t => t.cmd == 0 && t.busy && t.inputs == []) = true ∧
    refusedWith (step (idle [.hostRead 16 0xC])) (.unsupportedHostAccess 16 0xC) = true := by decide

/-- A machine in the middle of `SET_XL_RANGE 8`: the read is answered, the write is outstanding (T-XL). -/
def waiting (inputs : List Input) : State :=
  { busy [] inputs with
    cmd := 0x10000008, pending := some ⟨0x6B, .writeOne 0x10 0x0C⟩, temps := [⟨true, 0x00, 0⟩]
    tx := [⟨0x6B, .readOne 0x10⟩, ⟨0x6B, .writeOne 0x10 0x0C⟩] }

/-- A command waits where its answer is missing (R54), and goes on when it comes (R66). -/
theorem test_step_suspends :
    holds (step (idle [.hostWrite 32 0 0x10000008, ok, .hostRead 32 4])) (fun t => t == { waiting [.hostRead 32 4] with ready := true }) = true ∧
    ends (step (waiting [ok])) 0 0 [(0x10, 0x0C)] 2 = true ∧
    ends (step (waiting [fail true])) 1 0 [(0x10, 0x0C)] 2 = true := by decide

/-- The word placed is the word run (R51). -/
theorem test_step_fetch :
    holds (step (State.reset.withFetchWord 32 0x01000000)) (fun t => t.cmd == 0x01000000 && t.pending == some ⟨0x6B, .readOne 0x0F⟩) = true := by decide

/-! ### Witnesses: for each statement with hypotheses, a state that meets them

The witness of `Obligations.X` is `witness_X`; where a statement has several clauses there is one conjunct for each. -/

/-- A successful answer, as data. -/
def a0 : Answer := ⟨true, 0x00, 0x80, false⟩

/-- A failed answer whose byte landed. -/
def f0 : Answer := ⟨false, 0, 0, true⟩

/-- The hypotheses of the completion statements: a well-formed configuration and `READY = 1`. -/
abbrev Ready (s : State) : Prop := s.cfg.wf = true ∧ s.ready = true ∧ Memory.wf s.regs

theorem witness_ResetAbandonsCommand :
    Ready (waiting [.engineReset true]) ∧
    (waiting [.engineReset true]).inputs = .engineReset true :: [] := by decide

/-- A machine waiting for the sample of `READ_RAW_XL X`, one all-ones sample short of the greatest count. -/
def sampling (inputs : List Input) : State :=
  { busy [] inputs with
    cmd := 0x48000000, cntAllOnes := 0xFFFFFFFE, pending := some ⟨0x6B, .readBurst 0x28⟩, tx := [⟨0x6B, .readBurst 0x28⟩] }

theorem witness_OnlyResetClearsCounters :
    (sampling [ok 0xFF 0xFF]).cfg.wf = true ∧
    (sampling [ok 0xFF 0xFF]).cntAllOnes.toNat ≤ 2 ^ (sampling [ok 0xFF 0xFF]).cfg.cntWidth - 1 ∧
    (sampling [ok 0xFF 0xFF]).cntOther.toNat ≤ 2 ^ (sampling [ok 0xFF 0xFF]).cfg.cntWidth - 1 ∧
    (∀ landed, (sampling [ok 0xFF 0xFF]).inputs.head? ≠ some (.engineReset landed)) ∧
    holds (step (sampling [ok 0xFF 0xFF])) (fun t => t.cntAllOnes == 0xFFFFFFFF) = true := by
  refine ⟨by decide, by decide, by decide, fun landed h => ?_, by decide⟩
  cases landed <;> exact absurd h (by decide)

/-- The invariant holds in the middle of a command. -/
theorem waiting_inv : (waiting [ok]).Inv where
  regs_wf := by decide
  status_legal := by decide
  data_zero_on_error := by decide
  data_byte_on_mismatch := by decide
  all_ones_bounded := by decide
  other_bounded := by decide
  ready_verified := by decide
  busy_iff_pending := by decide
  idle_no_temps := by decide
  in_progress := fun q h => by
    cases h
    exact ⟨by decide, .setXlRange 8, by decide, by decide, by decide, by decide, by decide⟩
  init_identity := fun a h => by
    have : decode (waiting [ok]).cmd = .ok (.setXlRange 8) := by decide
    rw [this] at h
    cases h

theorem witness_StepKeepsInvariant :
    (waiting [ok]).Inv ∧
    holds (step (waiting [ok])) (fun _ => true) = true := ⟨waiting_inv, by decide⟩

theorem witness_DecodeEncodeRoundTrip :
    decode 0x10000008 = .ok (.setXlRange 8) := by decide

/-- The ends of every range of R87. -/
theorem witness_IllegalOpcodeEndsIllegal :
    [0x00, 0x02, 0x0F, 0x1A, 0x1F, 0x28, 0x2F, 0x34, 0x3F, 0x42, 0x47, 0x4A, 0x4F, 0x51, 0x5F, 0x62, 0xFF].all (fun op : Nat =>
      let s := idle [.hostWrite 32 0 (BitVec.ofNat 32 (op * 2 ^ 24))]
      s.cfg.wf && !s.busy && s.inputs == .hostWrite 32 0 (BitVec.ofNat 32 (op * 2 ^ 24)) :: [] &&
      (BitVec.ofNat 32 (op * 2 ^ 24)).toNat / 2 ^ 24 == op &&
      (op == 0x00 || (0x02 ≤ op && op ≤ 0x0F) || (0x1A ≤ op && op ≤ 0x1F) || (0x28 ≤ op && op ≤ 0x2F) ||
       (0x34 ≤ op && op ≤ 0x3F) || (0x42 ≤ op && op ≤ 0x47) || (0x4A ≤ op && op ≤ 0x4F) || (0x51 ≤ op && op ≤ 0x5F) ||
       (0x62 ≤ op && op ≤ 0xFF))) = true := by decide

theorem witness_StepRunsDecodedCommand :
    (idle [.hostWrite 32 0 0x10000008]).cfg.wf = true ∧
    (idle [.hostWrite 32 0 0x10000008]).busy = false ∧
    decode 0x10000008 = .ok (.setXlRange 8) ∧
    decodeTableWord 32 0x10000008 = some (.setXlRange 8) := by decide

/-- Both ends of every class, inside it and just outside (R82). -/
theorem witness_OperandClassesEnforced :
    [.init 0, .setBdu 0, .setBdu 1, .readXl 0, .readXl 2, .setXlRange 2, .setXlRange 16, .setGRange 125, .setGRange 2000,
      .setXlOdr 0, .setXlOdr 66600, .setGOdr 0, .setGOdr 66600].all
      (fun i : Instr => i.wf && holds (exec i (busy [] [ok, ok, ok])) (fun t => t.res == 0)) = true ∧
    [.init 1, .init 0xFFFFFF, .setBdu 2, .readXl 3, .setXlRange 1, .setXlRange 3, .setXlRange 17, .setGRange 124,
      .setGRange 2001, .setXlOdr 1, .setXlOdr 66601, .setGOdr 16, .setGOdr 66601].all
      (fun i : Instr => !i.wf && ends (exec i (busy [] [ok, ok, ok])) 2 0 [] 0) = true := by decide

/-- One word for each case of dispatch. -/
theorem witness_DispatchOrder :
    [(0x00000000, 3), (0x10000003, 2), (0x10000008, 4), (0x60000000, 0)].all (fun p : Word × BitVec 4 =>
      let s := { idle [.hostWrite 32 0 p.1] with ready := false }
      s.cfg.wf && !s.busy && holds (step s) (fun t => t.res == p.2 && t.cmd == p.1)) = true := by decide

theorem witness_NotReadyRejected :
    (Instr.getDrdy 0).wf = true ∧
    { busy [] [] with ready := false }.ready = false ∧
    (∀ a, Instr.getDrdy 0 ≠ .init a ∧ Instr.getDrdy 0 ≠ .getAllones a ∧ Instr.getDrdy 0 ≠ .getOtherfail a) := ⟨by decide, rfl, fun _ => ⟨nofun, nofun, nofun⟩⟩

/-- The four registers, idle and busy. -/
theorem witness_HostWrites :
    [0x0, 0x4, 0x8, 0xC].all (fun off : Word =>
      (idle [.hostWrite 32 off 1]).cfg.wf && (waiting [.hostWrite 32 off 1]).cfg.wf &&
      [0x0, 0x4, 0x8, 0xC].contains off.toNat) = true := by decide

/-- The invariant holds of an idle engine, whatever is to come. -/
theorem idle_inv (inputs : List Input) : (idle inputs).Inv where
  regs_wf := by show Memory.wf []; decide
  status_legal := by show (0 : BitVec 4).toNat ≤ 6; decide
  data_zero_on_error := fun _ _ => rfl
  data_byte_on_mismatch := fun h => absurd h (by show ¬(0 : BitVec 4) = 5; decide)
  all_ones_bounded := Nat.zero_le _
  other_bounded := Nat.zero_le _
  ready_verified := fun _ => rfl
  busy_iff_pending := rfl
  idle_no_temps := fun _ => rfl
  in_progress := fun q h => nomatch h
  init_identity := fun a h => by
    rw [show decode (idle inputs).cmd = .error (.illegalOpcode 0) from by show decode 0 = _; decide] at h
    cases h

/-- The four registers; a step that writes `RES` and `DATA`; an idle engine whose next inputs leave them. -/
theorem witness_HostReads :
    [0x0, 0x4, 0x8, 0xC].all (fun off : Word =>
      (idle [.hostRead 32 off]).cfg.wf && [0x0, 0x4, 0x8, 0xC].contains off.toNat) = true ∧
    holds (step (sampling [ok 0x01 0x00])) (fun t => t.data != (sampling []).data) = true ∧
    (let s := idle [.deviceWrite 0x10 0xFF, ok, .hostRead 32 0x8]
     s.Inv ∧ s.busy = false ∧ (∀ width v, s.inputs.head? ≠ some (.hostWrite width 0 v)) ∧
     (∀ landed, s.inputs.head? ≠ some (.engineReset landed)) ∧
     (∀ e ∈ s.inputs, (∀ width v, e ≠ .hostWrite width 0 v) ∧ ∀ landed, e ≠ .engineReset landed) ∧
     holds (Sys2Proof.core.run 3 s) (fun t => t.hostReply == some 0) = true) := by
  refine ⟨by decide, by decide, idle_inv _, rfl, nofun, nofun, fun e he => ?_, by decide⟩
  simp only [idle, ok, List.mem_cons, List.not_mem_nil, or_false] at he
  rcases he with rfl | rfl | rfl <;> exact ⟨nofun, nofun⟩

/-- A narrow access, an unaligned one, and the first and last words without a register. -/
theorem witness_UnsupportedHostAccessRefused :
    (idle [.hostRead 8 0]).cfg.wf = true ∧ (8 ≠ 32 ∨ (0 : Word).toNat % 4 ≠ 0) ∧ (32 ≠ 32 ∨ (0x2 : Word).toNat % 4 ≠ 0) ∧
    ((0x10 : Word).toNat % 4 = 0 ∧ 0x10 ≤ (0x10 : Word).toNat) ∧
    ((0xFFFFFFFC : Word).toNat % 4 = 0 ∧ 0x10 ≤ (0xFFFFFFFC : Word).toNat) := by decide

theorem witness_IllFormedConfigurationRefused :
    { State.reset with cfg := { Cfg.default with cntWidth := 33 } }.cfg.wf = false := by decide

/-- A field at each end of a register, with its greatest value. -/
theorem witness_FieldPutGet :
    [(Cfg.default.fXlOdr, (15 : Byte)), (⟨0, 0, 8, false⟩, 255), (⟨0, 0, 1, false⟩, 1), (⟨0, 7, 1, true⟩, 1)].all
      (fun p : Field × Byte => decide (1 ≤ p.1.w ∧ p.1.lsb + p.1.w ≤ 8 ∧ p.2.toNat < 2 ^ p.1.w)) = true := by decide

theorem witness_DeviceAnswersByKind :
    Ready (busy [(0x10, 0xF3)] []) ∧
    (0x10 ∈ Cfg.default.controlAddrs ∧ 0x17 ∈ Cfg.default.controlAddrs ∧ (0x10 : Byte) ≠ 0x17) ∧
    (0x28 ∈ Cfg.default.drawAddrs ∧ 0x2D ∈ Cfg.default.drawAddrs ∧ 0x22 ∈ Cfg.default.drawAddrs ∧ 0x27 ∈ Cfg.default.drawAddrs ∧
      0x1E ∈ Cfg.default.drawAddrs) := by decide

theorem witness_SetXlRangeCompletes :
    Ready (busy [] [ok, ok, ok]) ∧
    a0.ok = true ∧
    ((2 : Operand).toNat, (0 : Byte)) ∈ [(2, 0), (4, 2), (8, 3)] ∧
    ((8 : Operand).toNat, (3 : Byte)) ∈ [(2, 0), (4, 2), (8, 3)] ∧
    (16 : Operand).toNat = 16 := by decide

theorem witness_SetXlOdrCompletes :
    Ready (busy [] [ok, ok, ok]) ∧
    a0.ok = true ∧
    ((66600 : Operand).toNat = XlRate.hz6660.dHz ∧ XlRate.hz6660 ≠ .hz1_6) ∧
    ((0 : Operand).toNat = XlRate.off.dHz ∧ XlRate.off ≠ .hz1_6) ∧
    (16 : Operand).toNat = XlRate.hz1_6.dHz := by decide

theorem witness_BooleanSettersComplete :
    Ready (busy [] [.answer a0, .answer a0]) ∧
    (busy [] [.answer a0, .answer a0]).inputs = .answer a0 :: .answer a0 :: [] ∧
    a0.ok = true := by decide

/-- On from off, and on while on; the hypotheses of the first clause are met by either. -/
theorem witness_EnableSettersComplete :
    Ready (busy [] [.answer a0, .answer a0]) ∧ a0.ok = true ∧
    (let s := busy [] [.answer a0, .answer a0]
     s.cfg.fXlOdr.get (s.reg s.cfg.fXlOdr.reg) = s.cfg.odrCodeXl.off ∧
     s.cfg.fGOdr.get (s.reg s.cfg.fGOdr.reg) = s.cfg.odrCodeG.off) ∧
    (let s := busy [(0x10, 0x4C), (0x11, 0x5E)] [.answer a0]
     Ready s ∧ s.cfg.fXlOdr.get (s.reg s.cfg.fXlOdr.reg) ≠ s.cfg.odrCodeXl.off ∧
     s.cfg.fGOdr.get (s.reg s.cfg.fGOdr.reg) ≠ s.cfg.odrCodeG.off) := by decide

theorem witness_GyroSettersComplete :
    Ready (busy [] [.answer a0, .answer a0]) ∧
    a0.ok = true ∧
    ((125 : Operand).toNat, (1 : Byte), (0 : Byte)) ∈ [(125, 1, 0), (250, 0, 0), (500, 0, 1), (1000, 0, 2), (2000, 0, 3)] ∧
    ((2000 : Operand).toNat, (0 : Byte), (3 : Byte)) ∈ [(125, 1, 0), (250, 0, 0), (500, 0, 1), (1000, 0, 2), (2000, 0, 3)] ∧
    (0 : Operand).toNat = GRate.off.dHz ∧
    (66600 : Operand).toNat = GRate.hz6660.dHz := by decide

theorem witness_BooleanGettersComplete :
    Ready (busy [(0x15, 0x10)] [.answer a0]) ∧
    (busy [(0x15, 0x10)] [.answer a0]).inputs = .answer a0 :: [] ∧
    a0.ok = true := by decide

/-- Both modes with the code they disagree on, and the flag with a code it hides. -/
theorem witness_RangeGettersComplete :
    (let s := busy [(0x10, 0x04), (0x11, 0x0E), (0x17, 0x02)] [.answer a0, .answer a0]
     Ready s ∧ a0.ok = true ∧ s.cfg.fXlFsmode.get (s.reg s.cfg.regFsm) = 1 ∧ s.cfg.fXlFs.get (s.reg s.cfg.regCtrlXl) = 1 ∧
     s.cfg.fGFs125.get (s.reg s.cfg.regCtrlG) = 1 ∧ s.cfg.fGFs.get (s.reg s.cfg.regCtrlG) = 3) ∧
    (let s := busy [(0x10, 0x04)] [.answer a0]
     Ready s ∧ s.cfg.fXlFsmode.get (s.reg s.cfg.regFsm) = 0 ∧ s.cfg.fXlFs.get (s.reg s.cfg.regCtrlXl) = 1 ∧
     s.cfg.fGFs125.get (s.reg s.cfg.regCtrlG) = 0 ∧ s.cfg.fGFs.get (s.reg s.cfg.regCtrlG) = 0) := by decide

/-- Codes with a meaning (the 1.6 Hz code, the greatest gyroscope code) and codes without. -/
theorem witness_RateGettersComplete :
    (let s := busy [(0x10, 0xB0), (0x11, 0xA0)] [.answer a0]
     Ready s ∧ a0.ok = true ∧ s.cfg.odrCodeXl.code .hz1_6 = s.cfg.fXlOdr.get (s.reg s.cfg.regCtrlXl) ∧
     s.cfg.odrCodeG.code .hz6660 = s.cfg.fGOdr.get (s.reg s.cfg.regCtrlG)) ∧
    (let s := busy [(0x10, 0xC0), (0x11, 0xB0)] [.answer a0]
     Ready s ∧ (∀ v ∈ XlRate.all, s.cfg.odrCodeXl.code v ≠ s.cfg.fXlOdr.get (s.reg s.cfg.regCtrlXl)) ∧
     ∀ v ∈ GRate.all, s.cfg.odrCodeG.code v ≠ s.cfg.fGOdr.get (s.reg s.cfg.regCtrlG)) := by decide

theorem witness_EnabledGettersComplete :
    Ready (busy [(0x10, 0x40)] [.answer a0]) ∧
    (busy [(0x10, 0x40)] [.answer a0]).inputs = .answer a0 :: [] ∧
    a0.ok = true := by decide

theorem witness_RawReadsComplete :
    Ready (busy [] [.answer a0]) ∧
    a0.ok = true ∧
    ((0 : Operand).toNat < 3 ∧ (2 : Operand).toNat < 3) := by decide

/-- The accelerometer in extended mode at code 1, the gyroscope at its widest range. -/
theorem witness_ScaledReadsComplete :
    let s := busy [(0x10, 0x04), (0x11, 0x0C), (0x17, 0x02)] [.answer a0, .answer a0, .answer a0]
    Ready s ∧ a0.ok = true ∧ (2 : Operand).toNat < 3 ∧
    (s.cfg.fXlFsmode.get (s.reg s.cfg.regFsm), s.cfg.fXlFs.get (s.reg s.cfg.regCtrlXl), 61) ∈
      ([(0, 0, 61), (0, 1, 488), (0, 2, 122), (0, 3, 244), (1, 0, 61), (1, 1, 61), (1, 2, 122), (1, 3, 244)] :
        List (Byte × Byte × Nat)) ∧
    (s.cfg.fGFs125.get (s.reg s.cfg.regCtrlG), s.cfg.fGFs.get (s.reg s.cfg.regCtrlG), 70000) ∈
      ([(0, 0, 8750), (0, 1, 17500), (0, 2, 35000), (0, 3, 70000), (1, 0, 4375), (1, 1, 4375), (1, 2, 4375),
        (1, 3, 4375)] : List (Byte × Byte × Nat)) := by decide

theorem witness_InitCompletes :
    Ready (busy [] [.answer a0, .answer a0, .answer a0]) ∧
    a0.ok = true ∧
    (busy [] []).identity = (busy [] []).cfg.whoAmIValue ∧
    { busy [] [.answer a0] with identity := 0x6A }.identity ≠ { busy [] [.answer a0] with identity := 0x6A }.cfg.whoAmIValue := by decide

theorem witness_StatusQueryCompletes :
    Ready (busy [] [.answer a0]) ∧
    (busy [] [.answer a0]).inputs = .answer a0 :: [] ∧
    a0.ok = true := by decide

/-- `SET_XL_RANGE 8` waiting for the answer of its write, which then fails; `READ_G X` waiting for its burst. -/
theorem witness_FailedTransactionEndsCommand :
    (∀ a ∈ [a0], a.ok = true) ∧ f0.ok = false ∧
    holds (exec (.setXlRange 8) { busy [] [] with inputs := [a0].map .answer })
      (fun w => w.pending == some ⟨0x6B, .writeOne 0x10 0x0C⟩) = true ∧
    holds (exec (.readG 0) { busy [] [] with inputs := ([] : List Answer).map .answer })
      (fun w => w.pending == some ⟨0x6B, .readBurst 0x22⟩) = true := by decide

theorem witness_CommandLeavesOldOrFinalRegisters :
    (busy [] [ok, fail true]).cfg.wf = true ∧
    holds (exec (.setXlRange 8) (busy [] [ok, fail true])) (fun t => t.regs != (busy [] []).regs && t.res == 1) = true := by decide

/-- Completions with `ERR_TRANSPORT`, `ERR_ID_MISMATCH` and `ERR_BAD_CODE`. -/
theorem witness_ErrorsLeaveDataZero :
    (busy [] [fail]).busy = true ∧
    holds (exec (.getDrdy 0) (busy [] [fail])) (fun t => !t.busy && t.res == 1) = true ∧
    holds (exec (.init 0) { busy [] [ok] with identity := 0x6A }) (fun t => !t.busy && t.res == 5) = true ∧
    holds (exec (.getGOdr 0) (busy [(0x11, 0xF0)] [ok])) (fun t => !t.busy && t.res == 6) = true := by decide

/-- A setter that completes, a sample read, and a command left waiting. -/
theorem witness_CommandFrame :
    (busy [] [ok, ok]).cfg.wf = true ∧ ownFields Cfg.default (.setBdu 1) ≠ [] ∧ ownFields Cfg.default (.readG 0) = [] ∧
    sampleBase Cfg.default (.setBdu 1) = none ∧
    holds (exec (.setBdu 1) (busy [] [ok, ok])) (fun t => t.regs == [(0x12, 0x44)]) = true ∧
    holds (exec (.readG 0) (busy [] [ok])) (fun t => t.pending != none) = true := by decide

theorem witness_SettersPreserveForeignBits :
    Ready (busy [(0x10, 0xF3)] [ok, ok]) ∧
    (Cfg.default.fXlOdr ∈ Cfg.default.fields ∧ Cfg.default.fXlOdr ∉ ownFields Cfg.default (.setXlRange 8)) ∧
    holds (exec (.setXlRange 8) (busy [(0x10, 0xF3)] [ok, ok])) (fun t => t.regs == [(0x10, 0xFF)]) = true := by decide

theorem witness_AutoIncrementKept :
    Ready (busy [] [ok, ok]) ∧
    Cfg.default.fIfInc.get ((busy [] [ok, ok]).reg Cfg.default.regCtrlC) = 1 ∧
    holds (exec (.setBdu 1) (busy [] [ok, ok])) (fun _ => true) = true ∧
    holds (exec (.init 0) (busy [(0x12, 0x00)] [ok, ok, ok])) (fun t => !t.busy && t.res == 0) = true ∧
    Cfg.default.fIfInc.inv = false ∧
    (busy [] [ok, ok]).autoInc = true := by decide

/-- The two commands of a round trip, both completing with `OK`; the exceptions of R140 are reached. -/
theorem witness_AccelRoundTrip :
    Ready (busy [] [ok, ok, ok, ok, ok]) ∧ Ready (busy [(0x17, 0x02)] [ok, ok, ok, ok, ok]) ∧
    [([], 16), ([(0x17, 0x02)], 8)].all (fun p : List Host.Cell × Word =>
      holds (exec (.setXlRange 16) (busy p.1 [ok, ok, ok, ok, ok])) (fun t => !t.busy && t.res == 0 &&
        holds (exec (.getXlRange 0) (t.accepting (.getXlRange 0))) (fun u => !u.busy && u.res == 0 && u.data == p.2))) = true ∧
    [([], 16), ([(0x15, 0x10)], 125)].all (fun p : List Host.Cell × Word =>
      holds (exec (.setXlOdr 16) (busy p.1 [ok, ok, ok, ok])) (fun t => !t.busy && t.res == 0 &&
        holds (exec (.getXlOdr 0) (t.accepting (.getXlOdr 0))) (fun u => !u.busy && u.res == 0 && u.data == p.2))) = true := by
  decide

theorem witness_GyroRoundTrip :
    Ready (busy [] [ok, ok, ok]) ∧
    holds (exec (.setGRange 2000) (busy [] [ok, ok, ok])) (fun t => !t.busy && t.res == 0 &&
      holds (exec (.getGRange 0) (t.accepting (.getGRange 0))) (fun u => !u.busy && u.res == 0 && u.data == 2000)) = true ∧
    holds (exec (.setGOdr 66600) (busy [] [ok, ok, ok])) (fun t => !t.busy && t.res == 0 &&
      holds (exec (.getGOdr 0) (t.accepting (.getGOdr 0))) (fun u => !u.busy && u.res == 0 && u.data == 66600)) = true := by
  decide

/-- The hazard vector of T-XL. -/
theorem witness_ModeChangeReinterpretsRange :
    let s := busy [(0x10, 0x04)] [ok, ok, ok, ok]
    Ready s ∧ s.cfg.fXlFsmode.inv = false ∧ s.cfg.fXlFs.get (s.reg s.cfg.regCtrlXl) = 1 ∧
    holds (exec (.setXlFsmode 1) s) (fun t => !t.busy && t.res == 0 &&
      holds (exec (.getXlRange 0) (t.accepting (.getXlRange 0))) (fun u => !u.busy && u.res == 0 && u.data == 2)) = true := by
  decide

/-- An all-ones sample just below the greatest count; a command that counts nothing. -/
theorem witness_CounterLaws :
    let s := { busy [] [ok 0xFF 0xFF] with cntAllOnes := 0xFFFFFFFE }
    s.cfg.wf = true ∧ s.ready = true ∧ sampleBase s.cfg (.readRawXl 2) ≠ none ∧ (Instr.readRawXl 2).wf = true ∧
    s.cntAllOnes.toNat < 2 ^ s.cfg.cntWidth - 1 ∧ s.cntOther.toNat < 2 ^ s.cfg.cntWidth - 1 ∧
    holds (exec (.readRawXl 2) s) (fun t => t.cntAllOnes == 0xFFFFFFFF) = true ∧
    sampleBase s.cfg (.getDrdy 0) = none ∧ holds (exec (.getDrdy 0) s) (fun _ => true) = true := by decide

theorem witness_TransactionTable :
    (busy [] [ok, ok, ok]).cfg.wf = true ∧
    (busy [] [ok, ok, ok]).busy = true ∧
    holds (exec (.setXlRange 16) (busy [] [ok, ok, ok])) (fun t => !t.busy && t.res == 0) = true ∧
    holds (exec (.setXlRange 17) (busy [] [ok, ok, ok])) (fun t => !t.busy && t.res == 2) = true := by decide

/-- A wait in which the host polls and another agent writes the device. -/
theorem witness_UnansweredTransactionNeverCompletes :
    let s := waiting [.hostRead 32 0xC, .hostWrite 32 0 0x01000000, .deviceWrite 0x10 0xFF]
    s.busy = true ∧ s.pending ≠ none ∧
    (∀ e ∈ s.inputs, (∀ a, e ≠ .answer a) ∧ ∀ l, e ≠ .engineReset l) ∧
    holds (Sys2Proof.core.run 3 s) (fun t => t.busy) = true := by
  refine ⟨rfl, by decide, fun e he => ?_, by decide⟩
  simp only [waiting, busy, List.mem_cons, List.not_mem_nil, or_false] at he
  rcases he with rfl | rfl | rfl <;> exact ⟨nofun, nofun⟩

/-- A command that has one of its two answers. -/
theorem witness_SuspendedCommandResumes :
    let s := { busy [] [] with cmd := 0x10000008 }
    s.cfg.wf = true ∧ decode s.cmd = .ok (.setXlRange 8) ∧
    holds (exec (.setXlRange 8) { s with inputs := [a0].map .answer }) (fun w => w.pending != none) = true := by decide

theorem witness_EarlierResultAndRequestsDoNotMatter :
    let s := busy [] [ok]
    holds (exec (.getDrdy 0) s) (fun _ => true) = true ∧
    holds (exec (.getDrdy 0) { s with
      cmd := 1, data := 2, res := 3, pending := some ⟨0, .readOne 0⟩, temps := [⟨true, 1, 1⟩], tx := [⟨0, .readOne 0⟩]
      hostReply := some 4 }) (fun _ => true) = true := by decide

theorem witness_ReadyOnlyByInit :
    (busy [] [ok, ok, ok]).busy = true ∧
    holds (exec (.init 0) (busy [] [ok, ok, ok])) (fun t => t.ready && !t.busy && t.res == 0) = true ∧
    holds (exec (.init 0) (busy [] [ok])) (fun t => !t.ready && t.busy) = true ∧
    holds (exec (.getDrdy 0) (busy [] [ok])) (fun t => t.ready) = true := by decide

/-- A quotient halfway between two values of the format: 2^53 + 1. -/
theorem witness_RoundingIsNearestEven :
    1 ≤ binary64.prec ∧ 0 < 2 ^ 53 + 1 ∧ 0 < 1 ∧ roundTo binary64 false (2 ^ 53 + 1) 1 = ⟨false, 2 ^ 52, 1⟩ := by decide

/-- The extreme samples. -/
theorem witness_ScaleCornerCases :
    (0x8000 : Sample) ≠ 0 ∧ (0x7FFF : Sample) ≠ 0 ∧ (1 : Sample) ≠ 0 ∧
    scale .binary32 0x8000 61 = 0xBFFFDA41 ∧
    61 ∈ [61, 122, 244, 488, 4375, 8750, 17500, 35000, 70000] ∧ 70000 ∈ [61, 122, 244, 488, 4375, 8750, 17500, 35000, 70000] := by
  decide

theorem witness_ScaleOddSymmetry :
    (1000 : Sample) ≠ 0 ∧ (1000 : Sample) ≠ 0x8000 ∧ (0x7FFF : Sample) ≠ 0x8000 ∧
    scale .binary64 (-1000) 61 = 0xBD79DB23 := by decide

/-- The greatest non-negative sample and the least one. -/
theorem witness_SampleAssembly :
    (assemble 0xFF 0x7F).toNat < 0x8000 ∧ 0x8000 ≤ (assemble 0x00 0x80).toNat := by decide

theorem witness_AssembledLinesDecode :
    splitBlanks [] ("READ_G Z ; axis".toList.takeWhile (· != ';')) = ["READ_G".toList, "Z".toList] ∧
    "Z".toList.head? ≠ some '#' ∧ assembleLine "READ_G Z ; axis".toList = some 0x41000002 := by decide

/-- Both outcomes: a command that waits, and one that completes. -/
theorem witness_EveryCommandAnswersNextState :
    holds (exec (.init 0) State.reset) (fun t => t.pending == some ⟨0x6B, .readOne 0x0F⟩) = true ∧
    holds (exec (.init 1) State.reset) (fun t => t.pending == none && t.res == 2) = true := by decide

/-- A machine whose `INIT` waits for the answer of its write, the last. -/
def initializing : State :=
  { State.reset with
    cmd := 0x01000000, busy := true, pending := some ⟨0x6B, .writeOne 0x12 0x04⟩
    temps := [⟨true, 0x6C, 0⟩, ⟨true, 0x04, 0⟩], inputs := [ok] }

theorem initializing_inv : initializing.Inv where
  regs_wf := by decide
  status_legal := by decide
  data_zero_on_error := by decide
  data_byte_on_mismatch := by decide
  all_ones_bounded := by decide
  other_bounded := by decide
  ready_verified := by decide
  busy_iff_pending := by decide
  idle_no_temps := by decide
  in_progress := fun q h => by
    cases h
    exact ⟨by decide, .init 0, by decide, by decide, by decide, by decide, by decide⟩
  init_identity := fun _ _ r h => by
    cases h
    decide

/-- `INIT` clearing `READY` as it is accepted, `INIT` setting it with its last answer, and an engine reset. -/
theorem witness_ReadyChangesOnlyAtInitOrReset :
    ((idle [.hostWrite 32 0 0x01000000]).Inv ∧ (idle [.engineReset false]).Inv ∧ (initializing).Inv) ∧
    holds (step (idle [.hostWrite 32 0 0x01000000])) (fun t => t.ready != (idle []).ready && t.busy) = true ∧
    holds (step (idle [.engineReset false])) (fun t => t.ready != (idle []).ready) = true ∧
    holds (step initializing) (fun t => t.ready != initializing.ready && t.res == 0) = true :=
  ⟨⟨idle_inv _, idle_inv _, initializing_inv⟩, by decide⟩

/-- A foreign write of a control register in the middle of a command, and an answer that nobody asked for. -/
theorem witness_ForeignEventsLeaveEngine :
    ((waiting [.deviceWrite 0x10 0xFF]).cfg.wf = true ∧ Memory.wf (waiting []).regs) ∧
    (idle [ok]).cfg.wf = true ∧ (idle [ok]).Inv ∧ (idle [ok]).busy = false :=
  ⟨by decide, by decide, idle_inv _, rfl⟩

end Sys2Proof.Tests
end

section
/-! Rounding to a format is to the nearest value, ties to even (00_scope.md R14): what `divNearestEven`, `log2Ratio`,
`lastExp` and `roundTo` compute, each said once over the rationals, and the obligation assembled from it. -/

namespace Sys2Proof

/-! ### Shifting both sides of a fraction -/

/-- The shifts with which `log2Ratio` and `roundTo` scale a fraction divide it by a power of two, of either sign. -/
theorem shiftLeft_div_shiftLeft (n d : Nat) (e : Int) :
    ((n <<< (-e).toNat : Nat) : ℚ) / (d <<< e.toNat : Nat) = (n : ℚ) / d / (2 : ℚ) ^ e := by
  obtain ⟨m, rfl | rfl⟩ := e.eq_nat_or_neg
  · simp [Nat.shiftLeft_eq, div_div]
  · simp [Nat.shiftLeft_eq, div_mul_eq_mul_div]

/-! ### Rounding to an integer -/

/-- The distance down to the integer quotient is the remainder's fraction. -/
theorem abs_div_sub_floor (n : Nat) {d : Nat} (hd : 0 < d) :
    |(n : ℚ) / d - (n / d : Nat)| = (n % d : Nat) / d := by
  have euclid : (n : ℚ) = d * (n / d : Nat) + (n % d : Nat) := by exact_mod_cast (Nat.div_add_mod n d).symm
  have gap : (n : ℚ) / d - (n / d : Nat) = (n % d : Nat) / d := by
    field_simp
    linarith
  rw [gap, abs_of_nonneg (by positivity)]

/-- The distance up to the next integer is what the remainder's fraction leaves of 1. -/
theorem abs_div_sub_floor_succ (n : Nat) {d : Nat} (hd : 0 < d) :
    |(n : ℚ) / d - (n / d + 1 : Nat)| = 1 - (n % d : Nat) / d := by
  have fraction_lt_one : ((n % d : Nat) : ℚ) / d < 1 := by
    rw [div_lt_one (by exact_mod_cast hd)]
    exact_mod_cast Nat.mod_lt n hd
  have gap := abs_div_sub_floor n hd
  rw [abs_of_nonneg (sub_nonneg.2 Nat.cast_div_le)] at gap
  rw [Nat.cast_succ, ← sub_sub, gap, abs_of_neg (sub_neg.2 fraction_lt_one), neg_sub]

/-- All that `divNearestEven` can answer: the nearest integer, or the even one of two equally near. -/
theorem divNearestEven_nearest (n : Nat) {d : Nat} (hd : 0 < d) :
    |(n : ℚ) / d - divNearestEven n d| < 1 / 2 ∨
    |(n : ℚ) / d - divNearestEven n d| = 1 / 2 ∧ divNearestEven n d % 2 = 0 := by
  have hd' : (0 : ℚ) < d := by exact_mod_cast hd
  have down := abs_div_sub_floor n hd
  have up := abs_div_sub_floor_succ n hd
  have half_of_tie : ¬2 * (n % d) < d → ¬d < 2 * (n % d) → ((n % d : Nat) : ℚ) / d = 1 / 2 := fun h h' => by
    rw [div_eq_div_iff hd'.ne' two_ne_zero]
    exact_mod_cast (by omega : n % d * 2 = 1 * d)
  simp only [divNearestEven]
  split_ifs with below above even
  · left
    rw [down, div_lt_div_iff₀ hd' two_pos]
    exact_mod_cast (by omega : n % d * 2 < 1 * d)
  · left
    rw [up, sub_lt_comm, sub_half, div_lt_div_iff₀ two_pos hd']
    exact_mod_cast (by omega : 1 * d < n % d * 2)
  · exact .inr ⟨down.trans (half_of_tie below above), even⟩
  · exact .inr ⟨by rw [up, half_of_tie below above, sub_half], by omega⟩

/-- Rounding to an integer is within one half. -/
theorem abs_sub_divNearestEven_le (n : Nat) {d : Nat} (hd : 0 < d) :
    |(n : ℚ) / d - divNearestEven n d| ≤ 1 / 2 := by
  obtain near | ⟨tie, -⟩ := divNearestEven_nearest n hd
  · exact near.le
  · exact tie.le

/-- An integer at the distance of one half is the even one. -/
theorem divNearestEven_even_of_tie {n d : Nat} (hd : 0 < d)
    (tie : |(n : ℚ) / d - divNearestEven n d| = 1 / 2) : divNearestEven n d % 2 = 0 := by
  obtain near | ⟨-, even⟩ := divNearestEven_nearest n hd
  · exact absurd tie near.ne
  · exact even

/-- Rounding does not pass an integer from below. -/
theorem divNearestEven_le {n d m : Nat} (hd : 0 < d) (h : (n : ℚ) / d ≤ m) : divNearestEven n d ≤ m := by
  have near := abs_le.1 (abs_sub_divNearestEven_le n hd)
  have : (divNearestEven n d : ℚ) < (m + 1 : Nat) := by
    push_cast
    linarith
  exact Nat.lt_succ_iff.1 (by exact_mod_cast this)

/-- Rounding does not pass an integer from above. -/
theorem le_divNearestEven {n d m : Nat} (hd : 0 < d) (h : (m : ℚ) ≤ (n : ℚ) / d) : m ≤ divNearestEven n d := by
  have near := abs_le.1 (abs_sub_divNearestEven_le n hd)
  have : (m : ℚ) < (divNearestEven n d + 1 : Nat) := by
    push_cast
    linarith
  exact Nat.lt_succ_iff.1 (by exact_mod_cast this)

/-! ### The exponent of the last significand bit -/

/-- The comparison `log2Ratio` makes, as one between the fraction and a power of two. -/
theorem shiftLeft_le_shiftLeft_iff (n : Nat) {d : Nat} (hd : 0 < d) (k : Int) :
    d <<< k.toNat ≤ n <<< (-k).toNat ↔ (2 : ℚ) ^ k ≤ (n : ℚ) / d := by
  have hD : (0 : ℚ) < (d <<< k.toNat : Nat) := by exact_mod_cast Nat.shiftLeft_pos_iff.2 hd
  rw [← one_le_div₀ (by positivity : (0 : ℚ) < 2 ^ k), ← shiftLeft_div_shiftLeft, one_le_div₀ hD, Nat.cast_le]

/-- The logarithms of numerator and denominator place the fraction between two neighbours of their difference. -/
theorem div_mem_zpow_log2_sub {n d : Nat} (hn : 0 < n) (hd : 0 < d) :
    (2 : ℚ) ^ ((n.log2 : Int) - d.log2 - 1) ≤ (n : ℚ) / d ∧ (n : ℚ) / d < 2 ^ ((n.log2 : Int) - d.log2 + 1) := by
  have n_ge : (2 : ℚ) ^ n.log2 ≤ n := by exact_mod_cast Nat.log2_self_le hn.ne'
  have n_lt : (n : ℚ) < 2 ^ (n.log2 + 1) := by exact_mod_cast Nat.lt_log2_self
  have d_ge : (2 : ℚ) ^ d.log2 ≤ d := by exact_mod_cast Nat.log2_self_le hd.ne'
  have d_lt : (d : ℚ) < 2 ^ (d.log2 + 1) := by exact_mod_cast Nat.lt_log2_self
  have hd' : (0 : ℚ) < d := by exact_mod_cast hd
  constructor
  · calc (2 : ℚ) ^ ((n.log2 : Int) - d.log2 - 1) = 2 ^ n.log2 / 2 ^ (d.log2 + 1) := by
          rw [sub_sub, zpow_sub₀ two_ne_zero]; norm_cast
      _ ≤ n / d := div_le_div₀ (by positivity) n_ge hd' d_lt.le
  · calc (n : ℚ) / d < 2 ^ (n.log2 + 1) / 2 ^ d.log2 := div_lt_div₀ n_lt d_ge (by positivity) (by positivity)
      _ = 2 ^ ((n.log2 : Int) - d.log2 + 1) := by
          rw [sub_add_eq_add_sub, zpow_sub₀ two_ne_zero]; norm_cast

/-- `log2Ratio` is the floor of the base-2 logarithm of the fraction. -/
theorem log2Ratio_spec {n d : Nat} (hn : 0 < n) (hd : 0 < d) :
    (2 : ℚ) ^ log2Ratio n d ≤ (n : ℚ) / d ∧ (n : ℚ) / d < 2 ^ (log2Ratio n d + 1) := by
  obtain ⟨lower, upper⟩ := div_mem_zpow_log2_sub hn hd
  unfold log2Ratio
  dsimp only
  split_ifs with h <;> rw [shiftLeft_le_shiftLeft_iff n hd] at h
  · exact ⟨h, upper⟩
  · exact ⟨lower, by rw [sub_add_cancel]; exact not_le.1 h⟩

/-- In units of the last place the fraction has at most `prec` bits before the point. -/
theorem div_zpow_lastExp_le (f : FpFormat) {n d : Nat} (hn : 0 < n) (hd : 0 < d) :
    (n : ℚ) / d / 2 ^ lastExp f n d ≤ (2 ^ f.prec : Nat) := by
  have exp_le : log2Ratio n d + 1 ≤ f.prec + lastExp f n d := by
    unfold lastExp
    omega
  rw [div_le_iff₀ (by positivity)]
  calc (n : ℚ) / d ≤ 2 ^ (log2Ratio n d + 1) := (log2Ratio_spec hn hd).2.le
    _ ≤ 2 ^ ((f.prec : Int) + lastExp f n d) := zpow_le_zpow_right₀ one_le_two exp_le
    _ = (2 ^ f.prec : Nat) * 2 ^ lastExp f n d := by
        rw [zpow_add₀ two_ne_zero]; norm_cast

/-- In units of the last place the fraction has all `prec` bits before the point, unless the exponent is the least. -/
theorem le_div_zpow_lastExp {f : FpFormat} {n d : Nat} (hf : 1 ≤ f.prec) (hn : 0 < n) (hd : 0 < d)
    (he : lastExp f n d ≠ f.emin) : ((2 ^ (f.prec - 1) : Nat) : ℚ) ≤ (n : ℚ) / d / 2 ^ lastExp f n d := by
  have exp_eq : ((f.prec - 1 : Nat) : Int) + lastExp f n d = log2Ratio n d := by
    unfold lastExp at he ⊢
    omega
  rw [le_div_iff₀ (by positivity)]
  calc ((2 ^ (f.prec - 1) : Nat) : ℚ) * 2 ^ lastExp f n d = 2 ^ (((f.prec - 1 : Nat) : Int) + lastExp f n d) := by
        rw [zpow_add₀ two_ne_zero]; norm_cast
    _ ≤ (n : ℚ) / d := by rw [exp_eq]; exact (log2Ratio_spec hn hd).1

/-! ### Rounding to a format -/

/-- Rounding a fraction that is not zero is rounding to an integer in units of the last place. -/
theorem roundTo_of_pos (f : FpFormat) (neg : Bool) {n : Nat} (d : Nat) (hn : 0 < n) :
    roundTo f neg n d = ⟨neg, divNearestEven (n <<< (-lastExp f n d).toNat) (d <<< (lastExp f n d).toNat),
      lastExp f n d⟩ := by
  simp [roundTo, hn.ne']

/-- The error of a significand for an exponent is its error in units of the last place, scaled. -/
theorem abs_div_sub_mul_zpow (n d m : Nat) (e : Int) :
    |(n : ℚ) / d - m * 2 ^ e| = |((n <<< (-e).toNat : Nat) : ℚ) / (d <<< e.toNat : Nat) - m| * 2 ^ e := by
  have ulp_pos : (0 : ℚ) < 2 ^ e := by positivity
  rw [shiftLeft_div_shiftLeft, ← abs_of_pos ulp_pos, ← abs_mul, sub_mul, abs_of_pos ulp_pos,
    div_mul_cancel₀ _ ulp_pos.ne']

namespace Machine

/-- Settles O52: the error, the tie and the bounds of the significand are those of `divNearestEven` in units of the last
place, and `lastExp` is the exponent at which the fraction has `prec` bits before the point. -/
theorem roundingIsNearestEven : Obligations.RoundingIsNearestEven := by
  unfold Obligations.RoundingIsNearestEven
  intro f neg n d hf hn hd
  rw [roundTo_of_pos f neg d hn]
  dsimp only
  rw [abs_div_sub_mul_zpow]
  have hD : 0 < d <<< (lastExp f n d).toNat := Nat.shiftLeft_pos_iff.2 hd
  have scaled := shiftLeft_div_shiftLeft n d (lastExp f n d)
  have ulp_pos : (0 : ℚ) < 2 ^ lastExp f n d := by positivity
  rw [← one_div_mul_eq_div 2 ((2 : ℚ) ^ lastExp f n d)]
  refine ⟨?half_ulp, ?tie_even, ?sig_le, ?normalised, le_max_right _ _, rfl⟩
  case half_ulp => exact mul_le_mul_of_nonneg_right (abs_sub_divNearestEven_le _ hD) ulp_pos.le
  case tie_even =>
    intro tie
    exact divNearestEven_even_of_tie hD (mul_right_cancel₀ ulp_pos.ne' tie)
  case sig_le => exact divNearestEven_le hD (scaled ▸ div_zpow_lastExp_le f hn hd)
  case normalised =>
    by_cases he : lastExp f n d = f.emin
    · exact .inl he
    · exact .inr (le_divNearestEven hD (scaled ▸ le_div_zpow_lastExp hf hn hd he))

end Machine
end Sys2Proof
end

section
/-! What a command's program can come to, followed over its own steps (00_scope.md R13, 10_state.md R25): a condition on
`READY` wherever the program waits, and a condition on `READY`, status and data word wherever it completes. -/

namespace Sys2Proof.Machine

/-! ### Completions and waits of a program -/

/-- A program started with `READY` at `b` meets `W` at each wait and `R` at each completion, whatever the device replies. -/
def Prog.Meets (W : Bool → Prop) (R : Bool → Status → Word → Prop) : Bool → Prog → Prop
  | b, .finish st d => R b st d
  | _, .setReady b p => p.Meets W R b
  | b, .bump _ p => p.Meets W R b
  | b, .xfer _ k => W b ∧ ∀ r, (k r).Meets W R b

/-- The state `t` in which a command run from `s` stands: waiting for the device with nothing reported yet (R54), or
completed (R278). -/
def State.StandsAt (W : Bool → Prop) (R : Bool → Status → Word → Prop) (s t : State) : Prop :=
  (∃ q, t.pending = some q ∧ W t.ready ∧ t.busy = s.busy ∧ t.res = s.res ∧ t.data = s.data) ∨
  (∃ st, t.pending = none ∧ t.temps = [] ∧ t.busy = false ∧ t.res = Status.code st ∧ R t.ready st t.data)

@[simp] theorem Prog.after_nil (p : Prog) : p.after [] = p := by cases p <;> rfl
@[simp] theorem Prog.after_xfer_cons (op : TxOp) (k : Reply → Prog) (r : Reply) (rs : List Reply) :
    (xfer op k).after (r :: rs) = (k r).after rs := rfl

/-- The engine's own steps before a transaction are not part of what it asks for next. -/
@[simp] theorem Prog.after_setReady_request (b : Bool) (p : Prog) (rs : List Reply) :
    ((setReady b p).after rs).request = (p.after rs).request := by
  cases rs <;> simp [after, request]
@[simp] theorem Prog.after_bump_request (k : Counter) (p : Prog) (rs : List Reply) :
    ((bump k p).after rs).request = (p.after rs).request := by
  cases rs <;> simp [after, request]

/-- A program that has run and waits has had some replies, the first of them the device's to its first request, and its
outstanding request is the one it comes to after them (R54). -/
theorem Prog.run_pending {p : Prog} {s : State} {q : Request} (h : (p.run s).pending = some q) :
    q.dev = s.cfg.devAddr ∧ ∃ rs, (p.run s).temps = s.temps ++ rs ∧ (p.after rs).request = some q.op ∧
      ∀ r, rs.head? = some r → ∃ op a, p.request = some op ∧ r = s.reply op a := by
  induction p generalizing s with
  | finish st d => cases h
  | setReady b p ih => simpa [request] using ih (s := s.setReady b) h
  | bump k p ih => simpa [request] using ih (s := s.bump k) h
  | xfer op k ih =>
    rcases s.answer_or_wait with ⟨a, rest, hi⟩ | hw
    · rw [run_xfer_answer op k s a rest hi] at h ⊢
      obtain ⟨dev, rs, temps, req, -⟩ := ih _ h
      refine ⟨dev, s.reply op a :: rs, by simpa using temps, req, fun r head => ⟨op, a, rfl, ?_⟩⟩
      simpa using head.symm
    · rw [run_xfer_wait op k s hw] at h ⊢
      obtain rfl : _ = q := Option.some.inj h
      exact ⟨rfl, [], by simp, rfl, nofun⟩

section
variable {W : Bool → Prop} {R : Bool → Status → Word → Prop} {b : Bool}

/-- What the program promises holds of the state it leaves. -/
theorem Prog.Meets.run {p : Prog} {s : State} (h : p.Meets W R s.ready) : s.StandsAt W R (p.run s) := by
  induction p generalizing s with
  | finish st d => exact .inr ⟨st, rfl, rfl, rfl, rfl, h⟩
  | setReady b p ih => exact ih (s := s.setReady b) h
  | bump k p ih => simpa [State.StandsAt] using ih (s := s.bump k) (by simpa [Meets] using h)
  | xfer op k ih =>
    obtain ⟨waits, goes_on⟩ := h
    rcases s.answer_or_wait with ⟨a, rest, hi⟩ | hw
    · rw [run_xfer_answer op k s a rest hi]
      exact ih _ (s := s.transact op a) (goes_on _)
    · rw [run_xfer_wait op k s hw]
      exact .inl ⟨_, rfl, waits, rfl, rfl, rfl⟩

/-- What a waiting program goes on with after the reply meets the same conditions, from the one value `READY` can have
at a wait. -/
theorem Prog.Meets.after {ready : Bool} (hW : ∀ b, W b → b = ready) {p : Prog} (rs : List Reply) (r : Reply)
    (h : p.Meets W R b) (waits : (p.after rs).request ≠ none) : (p.after (rs ++ [r])).Meets W R ready := by
  induction p generalizing b rs with
  | finish st d => cases rs <;> exact absurd rfl waits
  | setReady b' p ih =>
    cases rs with
    | nil => exact ih [] h (by simpa [Prog.request] using waits)
    | cons x rs => exact ih (x :: rs) h waits
  | bump k p ih =>
    cases rs with
    | nil => exact ih [] h (by simpa [Prog.request] using waits)
    | cons x rs => exact ih (x :: rs) h waits
  | xfer op k ih =>
    obtain ⟨waits_here, goes_on⟩ := h
    cases rs with
    | nil =>
      obtain rfl := hW b waits_here
      simpa [Prog.after] using goes_on r
    | cons x rs => exact ih x rs (goes_on x) waits

/-! ### The helpers of the pseudocode -/

/-- Either branch of a test. -/
theorem ite_meets {c : Prop} [Decidable c] {p q : Prog} (hp : p.Meets W R b) (hq : q.Meets W R b) :
    (if c then p else q).Meets W R b := by
  split
  · exact hp
  · exact hq

/-- `ReadReg`: a wait, a transport error, and what follows for any byte (R63). -/
theorem readReg_meets {a : Byte} {k : Byte → Prog} (wait : W b) (transport : R b .errTransport 0)
    (next : ∀ x, (k x).Meets W R b) : (readReg a k).Meets W R b :=
  ⟨wait, fun r => ite_meets (next r.lo) transport⟩

/-- `ReadField` (R64). -/
theorem readField_meets {f : Field} {k : Byte → Prog} (wait : W b) (transport : R b .errTransport 0)
    (next : ∀ x, (k x).Meets W R b) : (readField f k).Meets W R b :=
  readReg_meets wait transport fun _ => next _

/-- `ReadBool` (R64). -/
theorem readBool_meets {f : Field} {k : Bool → Prog} (wait : W b) (transport : R b .errTransport 0)
    (next : ∀ x, (k x).Meets W R b) : (readBool f k).Meets W R b :=
  readReg_meets wait transport fun _ => next _

/-- `WriteReg` (R63). -/
theorem writeReg_meets {a v : Byte} {k : Prog} (wait : W b) (transport : R b .errTransport 0)
    (next : k.Meets W R b) : (writeReg a v k).Meets W R b :=
  ⟨wait, fun _ => ite_meets next transport⟩

/-- `UpdateFields` (R65). -/
theorem updateFields_meets {a : Byte} {fs : List (Field × Byte)} {k : Prog} (wait : W b)
    (transport : R b .errTransport 0) (next : k.Meets W R b) : (updateFields a fs k).Meets W R b :=
  readReg_meets wait transport fun _ => writeReg_meets wait transport next

/-- `RawStage`; the counters are not followed here (R232). -/
theorem rawStage_meets {base : Byte} {ax : Axis} {k : Sample → Prog} (wait : W b) (transport : R b .errTransport 0)
    (next : ∀ x, (k x).Meets W R b) : (rawStage base ax k).Meets W R b :=
  ⟨wait, fun _ => ite_meets (ite_meets (next _) (next _)) transport⟩

/-- A command past dispatch; the operand out of its class is not followed further (R82). -/
theorem onOperand_meets {α : Type} {o : Option α} {k : α → Prog} (invalid : R b .errInvalid 0)
    (rule : ∀ v, (k v).Meets W R b) : (onOperand o k).Meets W R b := by
  cases o with
  | none => exact invalid
  | some v => exact rule v

end

/-! ### What a command reports -/

/-- What a command that started with `READY` at `before` may report at its completion, `READY` then being `ready`: no
error but its own, data 0 but for `OK` and `ERR_ID_MISMATCH` (R23, R272), and `READY` set by a successful `INIT` alone
(R25, R250). -/
structure Reports (i : Instr) (c : Cfg) (identity : Byte) (before ready : Bool) (st : Status) (d : Word) :
    Prop where
  not_illegal : st ≠ .errIllegalOp
  data_zero : st ≠ .ok → st ≠ .errIdMismatch → d = 0
  mismatch : st = .errIdMismatch → i = .init 0 ∧ d = byteWord identity ∧ identity ≠ c.whoAmIValue
  bad_code : st = .errBadCode → (∃ a, i = .getXlOdr a) ∨ (∃ a, i = .getGOdr a)
  ready_init : i = .init 0 → (ready = true ↔ st = .ok)
  verified : i = .init 0 → ready = true → identity = c.whoAmIValue
  ready_kept : i ≠ .init 0 → ready = before

/-- `READY` while a command waits: 1 for a command that needs it, 0 for `INIT` (R25, R90). -/
structure WaitsWith (i : Instr) (before ready : Bool) : Prop where
  ready_eq : ready = i.needsReady
  ready_kept : i ≠ .init 0 → ready = before

/-- How the state stands after a command has run as far as it goes. -/
def Stands (i : Instr) (s t : State) : Prop :=
  s.StandsAt (WaitsWith i s.ready) (Reports i s.cfg s.identity s.ready) t

/-- Every command but a valid `INIT` keeps `READY` and reports one of the common statuses, or a bad code of its own. -/
theorem reports_of_ne_init {i : Instr} (not_init : i ≠ .init 0) (c : Cfg) (id : Byte) (b : Bool) {st : Status}
    {d : Word} (zero : st ≠ .ok → d = 0) (own : st = .errBadCode → (∃ a, i = .getXlOdr a) ∨ (∃ a, i = .getGOdr a))
    (not_illegal : st ≠ .errIllegalOp) (not_mismatch : st ≠ .errIdMismatch) : Reports i c id b b st d where
  not_illegal := not_illegal
  data_zero := fun h _ => zero h
  mismatch := fun h => absurd h not_mismatch
  bad_code := own
  ready_init := fun h => absurd h not_init
  verified := fun h => absurd h not_init
  ready_kept := fun _ => rfl

/-- The program of every command but a valid `INIT` keeps its promises. -/
theorem progOf_meets {i : Instr} (not_init : i ≠ .init 0) (s : State) (id : Byte)
    (dispatched : i.needsReady = true → s.ready = true) :
    (progOf i s).Meets (WaitsWith i s.ready) (Reports i s.cfg id s.ready) s.ready := by
  have transport : Reports i s.cfg id s.ready s.ready .errTransport 0 :=
    reports_of_ne_init not_init _ _ _ (fun _ => rfl) nofun nofun nofun
  have invalid : Reports i s.cfg id s.ready s.ready .errInvalid 0 :=
    reports_of_ne_init not_init _ _ _ (fun _ => rfl) nofun nofun nofun
  have done (d : Word) : Reports i s.cfg id s.ready s.ready .ok d :=
    reports_of_ne_init not_init _ _ _ (absurd rfl) nofun nofun nofun
  have badCode (own : (∃ a, i = .getXlOdr a) ∨ (∃ a, i = .getGOdr a)) :
      Reports i s.cfg id s.ready s.ready .errBadCode 0 :=
    reports_of_ne_init not_init _ _ _ (fun _ => rfl) (fun _ => own) nofun nofun
  have wait (h : i.needsReady = true) : WaitsWith i s.ready s.ready := ⟨(dispatched h).trans h.symm, fun _ => rfl⟩
  cases i with
  | init a =>
    have out_of_class : asNone a = none := if_neg fun h => not_init (congrArg _ (BitVec.eq_of_toNat_eq h))
    rw [progOf, out_of_class]
    exact invalid
  | getAllones a | getOtherfail a => exact onOperand_meets invalid fun _ => done _
  | setXlRange a =>
    exact onOperand_meets invalid fun _ => ite_meets
      (readField_meets (wait rfl) transport fun _ => updateFields_meets (wait rfl) transport (done 0))
      (updateFields_meets (wait rfl) transport (done 0))
  | setXlOdr a =>
    exact onOperand_meets invalid fun _ => ite_meets
      (readBool_meets (wait rfl) transport fun _ => updateFields_meets (wait rfl) transport (done 0))
      (updateFields_meets (wait rfl) transport (done 0))
  | setXlEn a | setGEn a =>
    exact onOperand_meets invalid fun _ => ite_meets
      (readReg_meets (wait rfl) transport fun _ => ite_meets (writeReg_meets (wait rfl) transport (done 0)) (done 0))
      (updateFields_meets (wait rfl) transport (done 0))
  | getXlOdr a =>
    refine onOperand_meets invalid fun _ => readField_meets (wait rfl) transport fun code => ?_
    split
    · exact done _
    · exact badCode (.inl ⟨a, rfl⟩)
  | getGOdr a =>
    refine onOperand_meets invalid fun _ => readField_meets (wait rfl) transport fun code => ?_
    split
    · exact done _
    · exact badCode (.inr ⟨a, rfl⟩)
  | setGRange a | setGOdr a | setXlHp a | setXlFsmode a | setGHp a | setBdu a | setEmb a =>
    exact onOperand_meets invalid fun _ => updateFields_meets (wait rfl) transport (done 0)
  | getXlHp a | getXlFsmode a | getGHp a | getBdu a | getEmb a =>
    exact onOperand_meets invalid fun _ => readBool_meets (wait rfl) transport fun _ => done _
  | getXlEn a | getGEn a =>
    exact onOperand_meets invalid fun _ => readField_meets (wait rfl) transport fun _ => done _
  | getGRange a | getDrdy a =>
    exact onOperand_meets invalid fun _ => readReg_meets (wait rfl) transport fun _ => done _
  | getXlRange a =>
    exact onOperand_meets invalid fun _ => readField_meets (wait rfl) transport fun _ =>
      readField_meets (wait rfl) transport fun _ => done _
  | readXl a =>
    exact onOperand_meets invalid fun _ => rawStage_meets (wait rfl) transport fun _ =>
      readField_meets (wait rfl) transport fun _ => readField_meets (wait rfl) transport fun _ => done _
  | readG a =>
    exact onOperand_meets invalid fun _ => rawStage_meets (wait rfl) transport fun _ =>
      readReg_meets (wait rfl) transport fun _ => done _
  | readRawXl a | readRawG a =>
    exact onOperand_meets invalid fun _ => rawStage_meets (wait rfl) transport fun _ => done _

/-! ### `INIT` -/

/-- What `INIT` goes on with after the device's reply to its first read: the identity is compared before anything is
written (R250). -/
def initReply (c : Cfg) (r : Reply) : Prog :=
  if r.ok then
    if r.lo = c.whoAmIValue then
      updateFields c.regCtrlC [(c.fIfInc, 1)] <| .setReady true <| complete (byteWord r.lo)
    else .finish .errIdMismatch (byteWord r.lo)
  else raise .errTransport

/-- `INIT` clears `READY`, asks for the identity and goes on with the reply. -/
theorem initProg_eq (c : Cfg) : initProg c = .setReady false (.xfer (.readOne c.regWhoAmI) (initReply c)) := rfl

/-- The program of a valid `INIT` is the rule of R250. -/
theorem progOf_init (s : State) : progOf (.init 0) s = initProg s.cfg := rfl

/-- After its first reply a valid `INIT` is past its comparison. -/
theorem progOf_init_after_cons (s : State) (r : Reply) (rs : List Reply) :
    (progOf (.init 0) s).after (r :: rs) = (initReply s.cfg r).after rs := by
  rw [progOf_init, initProg_eq, Prog.after, Prog.after_xfer_cons]

theorem Instr.eq_init_of_wf {a : Operand} (h : (Instr.init a).wf = true) : a = 0 := by
  apply BitVec.eq_of_toNat_eq
  simpa [Instr.wf, Instr.cls, Instr.operand, OperandClass.accepts, OperandClass.values] using h

/-- A valid `INIT` waits with `READY` 0 and reports by the identity byte it has read. -/
theorem initReply_meets (c : Cfg) (before : Bool) (r : Reply) :
    (initReply c r).Meets (WaitsWith (.init 0) before) (Reports (.init 0) c r.lo before) false := by
  have wait : WaitsWith (.init 0) before false := ⟨rfl, fun h => absurd rfl h⟩
  have transport : Reports (.init 0) c r.lo before false .errTransport 0 :=
    ⟨nofun, fun _ _ => rfl, nofun, nofun, fun _ => by decide, nofun, fun h => absurd rfl h⟩
  unfold initReply
  split
  · split
    · next same =>
      exact updateFields_meets wait transport
        ⟨nofun, fun h => absurd rfl h, nofun, nofun, fun _ => by decide, fun _ _ => same, fun h => absurd rfl h⟩
    · next differs =>
      exact ⟨nofun, fun _ h => absurd rfl h, fun _ => ⟨rfl, rfl, differs⟩, nofun, fun _ => by decide, nofun,
        fun h => absurd rfl h⟩
  · exact transport

/-- The first byte `INIT` reads is the device's identity (R53 item 4). -/
theorem reply_whoAmI_lo (s : State) (a : Answer) : (s.reply (.readOne s.cfg.regWhoAmI) a).lo = s.identity := by
  simp [State.reply, State.devByte_identity]

/-! ### Every command -/

/-- A command past dispatch, run from its start. -/
theorem progOf_run_stands {i : Instr} {s : State} (dispatched : i.needsReady = true → s.ready = true) :
    Stands i s ((progOf i s).run s) := by
  by_cases is_init : i = .init 0
  · subst is_init
    rw [progOf_init, initProg_eq, Prog.run_setReady]
    rcases (s.setReady false).answer_or_wait with ⟨a, rest, hi⟩ | hw
    · rw [Prog.run_xfer_answer _ _ _ a rest hi]
      have identity := reply_whoAmI_lo (s.setReady false) a
      have meets := initReply_meets s.cfg s.ready ((s.setReady false).reply (.readOne s.cfg.regWhoAmI) a)
      exact (identity ▸ meets).run (s := (s.setReady false).transact (.readOne s.cfg.regWhoAmI) a)
    · rw [Prog.run_xfer_wait _ _ _ hw]
      exact .inl ⟨_, rfl, ⟨rfl, fun h => absurd rfl h⟩, rfl, rfl, rfl⟩
  · exact (progOf_meets is_init s s.identity dispatched).run

/-- Every command is dispatch followed by its program, and its operand names a setting exactly where it is in its class
(R82, R89). -/
theorem exec_eq_launch_isSome (i : Instr) (s : State) :
    ∃ (α : Type) (o : Option α) (k : α → Prog),
      exec i s = launch o i.needsReady k s ∧ progOf i s = onOperand o k ∧ o.isSome = i.wf := by
  cases i <;> refine ⟨_, _, _, rfl, rfl, ?_⟩ <;>
    simp only [asNone_isSome, asBool_isSome, asAxis_isSome, asXlRange_isSome, asGRange_isSome, asXlRate_isSome,
      asGRate_isSome, Instr.wf, Instr.cls, Instr.operand]

/-- All that a command can do: it is rejected by dispatch, or its program runs (R89, R90). -/
theorem exec_cases {i : Instr} {s t : State} (h : exec i s = .next t) :
    (i.wf = false ∧ t = s.fresh.finish .errInvalid 0) ∨
    (i.wf = true ∧ i.needsReady = true ∧ s.ready = false ∧ t = s.fresh.finish .errNotReady 0) ∨
    (i.wf = true ∧ (i.needsReady = true → s.ready = true) ∧ t = (progOf i s).run s.fresh) := by
  obtain ⟨α, o, k, hexec, hprog, hwf⟩ := exec_eq_launch_isSome i s
  rw [hexec] at h
  rcases launch_cases h with ⟨rfl, rfl⟩ | ⟨some, needs, notReady, rfl⟩ | ⟨v, rfl, ready, rfl⟩
  · exact .inl ⟨hwf.symm, rfl⟩
  · exact .inr (.inl ⟨hwf ▸ some, needs, notReady, rfl⟩)
  · exact .inr (.inr ⟨hwf.symm, ready, by rw [hprog]; rfl⟩)

/-- How any command stands once it has run as far as it goes. -/
theorem exec_stands {i : Instr} {s t : State} (h : exec i s = .next t) : Stands i s t := by
  rcases exec_cases h with ⟨invalid, rfl⟩ | ⟨-, needs, -, rfl⟩ | ⟨-, dispatched, rfl⟩
  · have not_init : i ≠ .init 0 := by rintro rfl; exact absurd invalid (by decide)
    exact .inr ⟨.errInvalid, rfl, rfl, rfl, rfl, reports_of_ne_init not_init _ _ _ (fun _ => rfl) nofun nofun nofun⟩
  · have not_init : i ≠ .init 0 := by rintro rfl; cases needs
    exact .inr ⟨.errNotReady, rfl, rfl, rfl, rfl, reports_of_ne_init not_init _ _ _ (fun _ => rfl) nofun nofun nofun⟩
  · exact progOf_run_stands (s := s.fresh) dispatched

/-! ### A command in progress -/

/-- What the invariant says of the command in progress, for the word in `CMD` decoded. -/
theorem State.Inv.progress {s : State} {q : Request} {i : Instr} (h : s.Inv) (hp : s.pending = some q)
    (hd : decode s.cmd = .ok i) :
    i.wf = true ∧ s.ready = i.needsReady ∧ ((progOf i s).after s.temps).request = some q.op := by
  obtain ⟨-, j, hj, hwf, needs, idle, hreq⟩ := h.in_progress q hp
  obtain rfl : i = j := Except.ok.inj (hd.symm.trans hj)
  refine ⟨hwf, ?_, hreq⟩
  cases hn : i.needsReady
  · exact idle hn
  · exact needs hn

/-- With the reply to the outstanding transaction too, the first reply of an `INIT` in progress is the identity. -/
theorem State.Inv.first_reply {s : State} {q : Request} {arg : Operand} (h : s.Inv) (hp : s.pending = some q)
    (hd : decode s.cmd = .ok (.init arg)) (a : Answer) {r : Reply}
    (head : (s.temps ++ [s.reply q.op a]).head? = some r) : r.lo = s.identity := by
  obtain ⟨hwf, -, hreq⟩ := h.progress hp hd
  obtain rfl := Instr.eq_init_of_wf hwf
  cases temps : s.temps with
  | nil =>
    rw [temps] at hreq head
    obtain rfl : s.reply q.op a = r := Option.some.inj head
    have op_eq : TxOp.readOne s.cfg.regWhoAmI = q.op := Option.some.inj hreq
    exact op_eq ▸ reply_whoAmI_lo s a
  | cons x xs =>
    rw [temps] at head
    exact h.init_identity _ hd r (temps ▸ head)

/-- A command in progress, gone on after the device's answer. -/
theorem State.Inv.resumed_stands {s : State} {q : Request} {i : Instr} (h : s.Inv) (hp : s.pending = some q)
    (hd : decode s.cmd = .ok i) (a : Answer) :
    Stands i s (((progOf i s).after (s.temps ++ [s.reply q.op a])).run (s.answered q.op a)) := by
  obtain ⟨hwf, hready, hreq⟩ := h.progress hp hd
  have waits : ((progOf i s).after s.temps).request ≠ none := by simp [hreq]
  by_cases is_init : i = .init 0
  · subst is_init
    have first {r : Reply} := h.first_reply hp hd a (r := r)
    have meets : ((progOf (.init 0) s).after (s.temps ++ [s.reply q.op a])).Meets
        (WaitsWith (.init 0) s.ready) (Reports (.init 0) s.cfg s.identity s.ready) false := by
      cases temps : s.temps with
      | nil =>
        rw [temps] at first
        rw [List.nil_append, progOf_init_after_cons, Prog.after_nil, ← first rfl]
        exact initReply_meets s.cfg s.ready (s.reply q.op a)
      | cons x xs =>
        rw [temps] at first waits
        rw [progOf_init_after_cons] at waits
        rw [List.cons_append, progOf_init_after_cons, ← first rfl]
        exact (initReply_meets s.cfg s.ready x).after (fun _ (w : WaitsWith _ _ _) => w.ready_eq) xs _ waits
    exact Prog.Meets.run (s := s.answered q.op a) (by simpa [hready, Instr.needsReady] using meets)
  · have meets := progOf_meets is_init s s.identity fun needs => hready.trans needs
    exact (meets.after (fun _ w => w.ready_kept is_init) s.temps _ waits).run (s := s.answered q.op a)

end Sys2Proof.Machine
end

section
/-! The statements of 10_state.md: the counters, what commands report, where `READY` changes, and the invariant of a
step, each from what a command that has run can have done. -/

namespace Sys2Proof.Machine

/-! ### Status codes -/

theorem Status.code_toNat_le (st : Status) : st.code.toNat ≤ 6 := by cases st <;> decide

/-- The seven codes are distinct (R86). -/
theorem Status.code_inj {a b : Status} : a.code = b.code ↔ a = b := by
  cases a <;> cases b <;> decide

/-! ### The error counters -/

/-- `sat_inc` neither lowers a counter nor takes it past its maximum (R26, R232). -/
theorem satInc_bounds {c : Cfg} (hc : c.wf = true) {v : Word} (hv : v.toNat ≤ 2 ^ c.cntWidth - 1) :
    v.toNat ≤ (satInc c v).toNat ∧ (satInc c v).toNat ≤ 2 ^ c.cntWidth - 1 := by
  have width_le : 2 ^ c.cntWidth ≤ 2 ^ 32 := Nat.pow_le_pow_right (by omega) (Cfg.wf_width hc).2
  have max_eq : (cntMax c).toNat = 2 ^ c.cntWidth - 1 := by
    rw [cntMax, BitVec.toNat_ofNat]
    exact Nat.mod_eq_of_lt (by omega)
  unfold satInc
  split
  · exact ⟨le_rfl, hv⟩
  · next below =>
    have : v.toNat ≠ 2 ^ c.cntWidth - 1 := fun e => below (BitVec.eq_of_toNat_eq (e.trans max_eq.symm))
    have succ : (v + 1).toNat = v.toNat + 1 := by
      rw [BitVec.toNat_add]
      exact Nat.mod_eq_of_lt (by show v.toNat + 1 < 2 ^ 32; omega)
    omega

/-- Both counters are within `CNT_WIDTH` bits (R26, R27). -/
def State.CountersBounded (s : State) : Prop :=
  s.cntAllOnes.toNat ≤ 2 ^ s.cfg.cntWidth - 1 ∧ s.cntOther.toNat ≤ 2 ^ s.cfg.cntWidth - 1

/-- From `s` to `t` no counter has been lowered or has passed its maximum. -/
def State.CountsUp (s t : State) : Prop :=
  s.cntAllOnes.toNat ≤ t.cntAllOnes.toNat ∧ t.cntAllOnes.toNat ≤ 2 ^ s.cfg.cntWidth - 1 ∧
  s.cntOther.toNat ≤ t.cntOther.toNat ∧ t.cntOther.toNat ≤ 2 ^ s.cfg.cntWidth - 1

theorem State.CountersBounded.countsUp {s : State} (h : s.CountersBounded) : s.CountsUp s := ⟨le_rfl, h.1, le_rfl, h.2⟩

/-- Counting an event. -/
theorem State.CountsUp.bump {s t : State} (hc : s.cfg.wf = true) (cfg : t.cfg = s.cfg) (h : s.CountsUp t) (k : Counter) :
    s.CountsUp (t.bump k) := by
  obtain ⟨ones_le, ones_max, other_le, other_max⟩ := h
  cases k with
  | allOnes =>
    obtain ⟨up, bound⟩ := satInc_bounds hc ones_max
    simp only [CountsUp, bump_allOnes_cntAllOnes, bump_allOnes_cntOther, cfg]
    exact ⟨ones_le.trans up, bound, other_le, other_max⟩
  | other =>
    obtain ⟨up, bound⟩ := satInc_bounds hc other_max
    simp only [CountsUp, bump_other_cntAllOnes, bump_other_cntOther, cfg]
    exact ⟨ones_le, ones_max, other_le.trans up, bound⟩

/-- A program only counts up. -/
theorem Prog.run_countsUp (p : Prog) {s : State} (hc : s.cfg.wf = true) (h : s.CountersBounded) :
    s.CountsUp (p.run s) :=
  (Prog.run_induct (P := fun t => t.cfg = s.cfg ∧ s.CountsUp t) (fun _ _ h => h)
    (fun t k ⟨cfg, up⟩ => ⟨by simpa using cfg, up.bump hc cfg k⟩) (fun _ _ h => h) (fun _ _ _ _ _ h => h)
    (fun _ _ _ h => h) p s ⟨rfl, h.countsUp⟩).2

/-- A command only counts up. -/
theorem exec_countsUp {i : Instr} {s t : State} (hc : s.cfg.wf = true) (h : s.CountersBounded)
    (hexec : exec i s = .next t) : s.CountsUp t := by
  rcases exec_cases hexec with ⟨-, rfl⟩ | ⟨-, -, -, rfl⟩ | ⟨-, -, rfl⟩
  · exact h.countsUp
  · exact h.countsUp
  · exact Prog.run_countsUp _ (s := s.fresh) hc h

/-- An answer only counts up. -/
theorem resume_countsUp {s : State} (a : Answer) (hc : s.cfg.wf = true) (h : s.CountersBounded) :
    s.CountsUp (resume a s) := by
  rcases resume_cases a s with ⟨-, eq⟩ | ⟨q, i, -, -, eq⟩ | ⟨q, e, -, -, eq⟩ <;> rw [eq]
  · exact h.countsUp
  · exact Prog.run_countsUp _ (s := s.answered q.op a) hc h
  · exact h.countsUp

/-- Settles O3: of the events only a command that runs can count, and it counts up. -/
theorem onlyResetClearsCounters : Obligations.OnlyResetClearsCounters := by
  unfold Obligations.OnlyResetClearsCounters
  intro s t hc ones other no_reset hstep
  have bounded : s.CountersBounded := ⟨ones, other⟩
  obtain ⟨-, ⟨-, rfl⟩ | ⟨a, rest, -, rfl⟩ | ⟨width, off, rest, -, -, rfl⟩ | ⟨width, off, v, rest, -, -, -, rfl⟩ |
    ⟨width, v, rest, -, -, -, hstart⟩ | ⟨landed, rest, hin, rfl⟩ | ⟨a, v, rest, -, rfl⟩⟩ := step_cases hstep
  · exact bounded.countsUp
  · exact resume_countsUp a hc bounded
  · exact bounded.countsUp
  · exact bounded.countsUp
  · rcases startCommand_cases exec v s.drop with ⟨i, -, eq⟩ | ⟨e, -, eq⟩ <;> rw [eq] at hstart
    · exact exec_countsUp (s := s.drop.accept v) hc bounded hstart
    · cases hstart
      exact bounded.countsUp
  · exact absurd (by rw [hin]; rfl) (no_reset landed)
  · exact bounded.countsUp

/-! ### Commands -/

/-- Settles O12: of the three things dispatch can do, only the second is left. -/
theorem notReadyRejected : Obligations.NotReadyRejected := by
  unfold Obligations.NotReadyRejected
  intro i s hwf not_ready others
  have needs : i.needsReady = true := by
    cases i with
    | init a => exact absurd rfl (others a).1
    | getAllones a => exact absurd rfl (others a).2.1
    | getOtherfail a => exact absurd rfl (others a).2.2
    | _ => rfl
  obtain ⟨α, o, k, hexec, -⟩ := exec_eq_launch i s
  obtain ⟨t, hnext⟩ := launch_next o i.needsReady k s
  rw [← hexec] at hnext
  rcases exec_cases hnext with ⟨invalid, -⟩ | ⟨-, -, -, rfl⟩ | ⟨-, dispatched, -⟩
  · rw [hwf] at invalid
    cases invalid
  · exact hnext
  · rw [dispatched needs] at not_ready
    cases not_ready

/-- A command that left the engine idle has completed. -/
theorem Stands.completed {i : Instr} {s t : State} (h : Stands i s t) (busy : s.busy = true) (idle : t.busy = false) :
    ∃ st, t.res = Status.code st ∧ Reports i s.cfg s.identity s.ready t.ready st t.data := by
  rcases h with ⟨q, -, -, still, -⟩ | ⟨st, -, -, -, res, reports⟩
  · rw [still, busy] at idle
    cases idle
  · exact ⟨st, res, reports⟩

/-- Settles O39: what a completed command reports, read from `RES`. -/
theorem errorsLeaveDataZero : Obligations.ErrorsLeaveDataZero := by
  unfold Obligations.ErrorsLeaveDataZero
  intro i s t busy hexec idle
  obtain ⟨st, res, reports⟩ := (exec_stands hexec).completed busy idle
  rw [res]
  refine ⟨st.code_toNat_le, ?legal, ?zero, ?mismatch, ?bad_code⟩
  case legal => exact fun h => reports.not_illegal (Status.code_inj.1 h)
  case zero =>
    exact fun not_ok not_mismatch => reports.data_zero (fun h => not_ok (h ▸ rfl)) fun h => not_mismatch (h ▸ rfl)
  case mismatch =>
    intro h
    obtain rfl : st = .errIdMismatch := Status.code_inj.1 h
    obtain ⟨is_init, data, differs⟩ := reports.mismatch rfl
    refine ⟨⟨0, is_init⟩, ?_, differs, ?_⟩
    · rw [data]
      exact BitVec.eq_of_toNat_eq (by simp [byteWord])
    · simpa using reports.ready_init is_init
  case bad_code => exact fun h => reports.bad_code (Status.code_inj.1 h)

/-- Settles O51: while `INIT` waits `READY` is 0, and at its completion it is 1 exactly for the status `OK`. -/
theorem readyOnlyByInit : Obligations.ReadyOnlyByInit := by
  unfold Obligations.ReadyOnlyByInit
  intro i s t busy hexec
  rcases exec_stands hexec with ⟨q, -, waits, still, -⟩ | ⟨st, -, -, idle, res, reports⟩
  · have not_ready : i = .init 0 → t.ready = false := by
      rintro rfl
      exact waits.ready_eq
    refine ⟨fun is_init => ?_, fun is_init ready => ?_, waits.ready_kept⟩
    · simp [not_ready is_init, still, busy]
    · rw [not_ready is_init] at ready
      cases ready
  · refine ⟨fun is_init => ?_, reports.verified, reports.ready_kept⟩
    rw [reports.ready_init is_init, res, ← Status.code_inj (b := .ok)]
    exact ⟨fun ok => ⟨idle, ok⟩, fun h => h.2⟩

/-! ### `READY` in a step -/

/-- A command that has changed `READY` is a valid `INIT`; if `READY` is 1 it has completed with `OK` and has read the
expected identity. -/
theorem Stands.init_of_ready_ne {i : Instr} {s t : State} (h : Stands i s t) (changed : t.ready ≠ s.ready) :
    i = .init 0 ∧ (t.ready = true → t.busy = false ∧ t.res = 0 ∧ s.identity = s.cfg.whoAmIValue) := by
  rcases h with ⟨q, -, waits, -⟩ | ⟨st, -, -, idle, res, reports⟩
  · have is_init : i = .init 0 := not_not.1 fun h => changed (waits.ready_kept h)
    subst is_init
    refine ⟨rfl, fun ready => ?_⟩
    rw [waits.ready_eq] at ready
    cases ready
  · have is_init : i = .init 0 := not_not.1 fun h => changed (reports.ready_kept h)
    refine ⟨is_init, fun ready => ⟨idle, ?_, reports.verified is_init ready⟩⟩
    rw [res, (reports.ready_init is_init).1 ready]
    rfl

/-- A command changes neither `CMD`, the identity nor the configuration. -/
theorem exec_keeps {i : Instr} {s t : State} (h : exec i s = .next t) :
    t.cmd = s.cmd ∧ t.identity = s.identity ∧ t.cfg = s.cfg := by
  rcases exec_cases h with ⟨-, rfl⟩ | ⟨-, -, -, rfl⟩ | ⟨-, -, rfl⟩
  · exact ⟨rfl, rfl, rfl⟩
  · exact ⟨rfl, rfl, rfl⟩
  · obtain ⟨cmd, identity, cfg, -⟩ := Prog.run_keeps (progOf i s) s.fresh
    exact ⟨cmd, identity, cfg⟩

/-- Settles O57: event by event, only a command that starts or goes on can change `READY`, and it is `INIT`. -/
theorem readyChangesOnlyAtInitOrReset : Obligations.ReadyChangesOnlyAtInitOrReset := by
  unfold Obligations.ReadyChangesOnlyAtInitOrReset
  intro s t inv hstep changed
  obtain ⟨-, ⟨-, rfl⟩ | ⟨a, rest, hin, rfl⟩ | ⟨width, off, rest, -, -, rfl⟩ | ⟨width, off, v, rest, -, -, -, rfl⟩ |
    ⟨width, v, rest, hin, access, idle, hstart⟩ | ⟨landed, rest, hin, rfl⟩ | ⟨a, v, rest, -, rfl⟩⟩ := step_cases hstep
  · exact absurd rfl changed
  · rcases resume_cases a s with ⟨-, eq⟩ | ⟨q, i, hp, hd, eq⟩ | ⟨q, e, hp, hd, eq⟩ <;> rw [eq] at changed ⊢
    · exact absurd rfl changed
    · obtain ⟨rfl, verified⟩ := (inv.resumed_stands hp hd a).init_of_ready_ne changed
      obtain ⟨cmd, identity, cfg, -⟩ := Prog.run_keeps
        ((progOf (.init 0) s).after (s.temps ++ [s.reply q.op a])) (s.answered q.op a)
      refine .inr ⟨by rw [cmd]; exact hd, .inr ⟨a, by rw [hin]; rfl, ?_, cmd⟩, ?_⟩
      · rw [inv.busy_iff_pending, hp]
        rfl
      · rw [identity, cfg]
        exact verified
    · exact absurd rfl changed
  · exact absurd rfl changed
  · exact absurd rfl changed
  · rcases startCommand_cases exec v s.drop with ⟨i, hd, eq⟩ | ⟨e, -, eq⟩ <;> rw [eq] at hstart
    · obtain ⟨rfl, verified⟩ := (exec_stands hstart).init_of_ready_ne changed
      obtain ⟨cmd, identity, cfg⟩ := exec_keeps hstart
      obtain rfl : width = 32 := by simpa [hostAccessOk] using access
      refine .inr ⟨by rw [cmd]; exact hd, .inl ⟨v, by rw [hin]; rfl, idle, cmd⟩, ?_⟩
      rw [identity, cfg]
      exact verified
    · cases hstart
      exact absurd rfl changed
  · exact .inl ⟨⟨landed, by rw [hin]; rfl⟩, rfl⟩
  · exact absurd rfl changed

end Sys2Proof.Machine
end

section
/-! Every step keeps the invariant: its clauses on what the host can read, which an engine at work keeps too, and then
those on the command in progress (10_state.md R22 to R29, 20_memory.md R54). -/

namespace Sys2Proof.Machine

/-- The clauses of the invariant that say nothing of the command in progress. -/
structure State.Lawful (s : State) : Prop where
  regs_wf : Memory.wf s.regs
  status_legal : s.res.toNat ≤ 6
  data_zero_on_error : s.res ≠ 0 → s.res ≠ 5 → s.data = 0
  data_byte_on_mismatch : s.res = 5 → s.data.toNat < 256
  counters : s.CountersBounded
  ready_verified : s.ready = true → s.identity = s.cfg.whoAmIValue

theorem State.Inv.lawful {s : State} (h : s.Inv) : s.Lawful where
  regs_wf := h.regs_wf
  status_legal := h.status_legal
  data_zero_on_error := h.data_zero_on_error
  data_byte_on_mismatch := h.data_byte_on_mismatch
  counters := ⟨h.all_ones_bounded, h.other_bounded⟩
  ready_verified := h.ready_verified

/-- An idle engine with nothing left of a command has no more to keep. -/
theorem State.Lawful.inv_of_idle {s : State} (h : s.Lawful) (idle : s.busy = false) (pending : s.pending = none)
    (temps : s.temps = []) : s.Inv where
  regs_wf := h.regs_wf
  status_legal := h.status_legal
  data_zero_on_error := h.data_zero_on_error
  data_byte_on_mismatch := h.data_byte_on_mismatch
  all_ones_bounded := h.counters.1
  other_bounded := h.counters.2
  ready_verified := h.ready_verified
  busy_iff_pending := by rw [idle, pending]; rfl
  idle_no_temps := fun _ => temps
  in_progress := by simp [pending]
  init_identity := by simp [temps]

/-- A rejection by dispatch: an error of data 0, and an idle engine. -/
theorem State.Lawful.finish_inv {s : State} (h : s.Lawful) {st : Status} (not_mismatch : st ≠ .errIdMismatch) :
    (s.finish st 0).Inv := by
  refine State.Lawful.inv_of_idle ⟨h.regs_wf, st.code_toNat_le, fun _ _ => rfl, fun mismatch => ?_, h.counters,
    h.ready_verified⟩ rfl rfl rfl
  have : st = .errIdMismatch := Status.code_inj.1 mismatch
  exact absurd this not_mismatch

/-- A program of a command that stands as it should leaves a lawful state. -/
theorem Stands.lawful {i : Instr} {s : State} {p : Prog} (hc : s.cfg.wf = true) (h : s.Lawful)
    (stands : Stands i s (p.run s)) : (p.run s).Lawful := by
  obtain ⟨-, identity, cfg, -⟩ := Prog.run_keeps p s
  obtain ⟨-, ones, -, other⟩ := Prog.run_countsUp p hc h.counters
  have counters : (p.run s).CountersBounded := by
    rw [State.CountersBounded, cfg]
    exact ⟨ones, other⟩
  rcases stands with ⟨q, -, waits, -, res, data⟩ | ⟨st, -, -, -, res, reports⟩
  · refine ⟨Prog.run_wf p s h.regs_wf, ?_, ?_, ?_, counters, ?_⟩ <;> simp only [res, data, identity, cfg]
    · exact h.status_legal
    · exact h.data_zero_on_error
    · exact h.data_byte_on_mismatch
    · intro ready
      by_cases is_init : i = .init 0
      · subst is_init
        rw [waits.ready_eq] at ready
        cases ready
      · exact h.ready_verified (waits.ready_kept is_init ▸ ready)
  · refine ⟨Prog.run_wf p s h.regs_wf, ?_, ?_, ?_, counters, ?_⟩ <;> simp only [res, identity, cfg]
    · exact st.code_toNat_le
    · exact fun not_ok not_mismatch =>
        reports.data_zero (fun h => not_ok (h ▸ rfl)) fun h => not_mismatch (h ▸ rfl)
    · intro mismatch
      obtain ⟨-, data, -⟩ := reports.mismatch (Status.code_inj.1 mismatch)
      rw [data, byteWord, BitVec.toNat_setWidth]
      exact (Nat.mod_le _ _).trans_lt s.identity.isLt
    · intro ready
      by_cases is_init : i = .init 0
      · exact reports.verified is_init ready
      · exact h.ready_verified (reports.ready_kept is_init ▸ ready)

/-- A counter query issues no transaction (R252, R253). -/
theorem onOperand_complete_after_request {α : Type} (o : Option α) (d : Word) (rs : List Reply) :
    ((onOperand o fun _ => complete d).after rs).request = none := by
  cases o <;> cases rs <;> rfl

/-- The transactions a command comes to depend on the configuration only: the counter queries, which read a counter,
issue none. -/
theorem progOf_after_request_congr {s t : State} (cfg : t.cfg = s.cfg) (i : Instr) (rs : List Reply) :
    ((progOf i t).after rs).request = ((progOf i s).after rs).request := by
  cases i with
  | getAllones a | getOtherfail a =>
    exact (onOperand_complete_after_request _ _ _).trans (onOperand_complete_after_request _ _ _).symm
  | _ => simp only [progOf, cfg]

/-- An engine at work on a command that passed dispatch, its last transaction answered. -/
structure State.Working (i : Instr) (s : State) : Prop where
  lawful : s.Lawful
  busy : s.busy = true
  decoded : decode s.cmd = .ok i
  wf : i.wf = true
  init_identity : ∀ a, i = .init a → ∀ r, s.temps.head? = some r → r.lo = s.identity

/-- An engine at work that goes on as its command says reaches the invariant again, waiting or completed. -/
theorem State.Working.inv {i : Instr} {s : State} (hc : s.cfg.wf = true) (h : s.Working i)
    (stands : Stands i s (((progOf i s).after s.temps).run s)) : (((progOf i s).after s.temps).run s).Inv := by
  have lawful := stands.lawful hc h.lawful
  obtain ⟨cmd, identity, cfg, -⟩ := Prog.run_keeps ((progOf i s).after s.temps) s
  rcases stands with ⟨q, pending, waits, busy, -⟩ | ⟨st, pending, temps, idle, -⟩
  · obtain ⟨dev, rs, temps, req, first⟩ := Prog.run_pending pending
    rw [← Prog.after_append] at req
    refine { lawful with
      all_ones_bounded := lawful.counters.1
      other_bounded := lawful.counters.2
      busy_iff_pending := by rw [busy, h.busy, pending]; rfl
      idle_no_temps := by simp [pending]
      in_progress := ?in_progress
      init_identity := ?init_identity }
    case in_progress =>
      intro q' hq'
      obtain rfl : q = q' := Option.some.inj (pending.symm.trans hq')
      refine ⟨by rw [cfg]; exact dev, i, by rw [cmd]; exact h.decoded, h.wf, waits.ready_eq.trans,
        waits.ready_eq.trans, ?_⟩
      rw [temps, progOf_after_request_congr cfg, req]
    case init_identity =>
      intro a hd r head
      rw [cmd] at hd
      obtain rfl : i = .init a := Except.ok.inj (h.decoded.symm.trans hd)
      obtain rfl := Instr.eq_init_of_wf h.wf
      rw [identity]
      rw [temps] at head
      cases had : s.temps with
      | cons x xs =>
        rw [had] at head
        exact h.init_identity 0 rfl r (had ▸ head)
      | nil =>
        rw [had] at head first
        obtain ⟨op, a, first_op, rfl⟩ := first r head
        obtain rfl : TxOp.readOne s.cfg.regWhoAmI = op := Option.some.inj first_op
        exact reply_whoAmI_lo s a
  · exact lawful.inv_of_idle idle pending temps

/-- A command word that an idle engine accepts. -/
theorem State.Inv.exec_inv {s t : State} {i : Instr} {w : Word} (hc : s.cfg.wf = true) (h : s.Inv)
    (hd : decode w = .ok i) (hexec : exec i (s.accept w) = .next t) : t.Inv := by
  have lawful : (s.accept w).fresh.Lawful := { h.lawful with }
  have stands := exec_stands hexec
  rcases exec_cases hexec with ⟨-, rfl⟩ | ⟨-, -, -, rfl⟩ | ⟨hwf, -, rfl⟩
  · exact lawful.finish_inv nofun
  · exact lawful.finish_inv nofun
  · have working : (s.accept w).fresh.Working i := ⟨lawful, rfl, hd, hwf, nofun⟩
    have inv := working.inv (s := (s.accept w).fresh) hc
    rw [State.fresh_temps, Prog.after_nil] at inv
    exact inv stands

/-- The answer to the outstanding transaction. -/
theorem State.Inv.resume_inv {s : State} (hc : s.cfg.wf = true) (h : s.Inv) (a : Answer) : (resume a s).Inv := by
  rcases resume_cases a s with ⟨-, eq⟩ | ⟨q, i, hp, hd, eq⟩ | ⟨q, e, hp, hd, -⟩
  · rw [eq]
    exact { h with }
  · rw [eq]
    have lawful : (s.answered q.op a).Lawful :=
      { h.lawful with regs_wf := s.regsAfter_wf q.op a.ok a.landed h.regs_wf }
    obtain ⟨hwf, -⟩ := h.progress hp hd
    have busy : s.busy = true := by rw [h.busy_iff_pending, hp]; rfl
    have working : (s.answered q.op a).Working i :=
      ⟨lawful, busy, hd, hwf, fun arg is_init r head => h.first_reply hp (is_init ▸ hd) a head⟩
    exact working.inv (s := s.answered q.op a) hc (h.resumed_stands hp hd a)
  · obtain ⟨-, i, hi, -⟩ := h.in_progress q hp
    rw [hd] at hi
    cases hi

/-- Engine reset (R300): every item at its reset value, and the device's registers canonical still. -/
theorem State.Inv.engineReset_inv {s : State} (h : s.Inv) (landed : Bool) : (s.engineReset landed).Inv := by
  have regs_wf : Memory.wf (s.engineReset landed).regs := by
    cases hp : s.pending with
    | none => rw [s.engineReset_regs_none landed hp]; exact h.regs_wf
    | some q => rw [s.engineReset_regs_some landed q hp]; exact s.regsAfter_wf q.op false landed h.regs_wf
  exact State.Lawful.inv_of_idle ⟨regs_wf, by simp, by simp, by simp, ⟨by simp, by simp⟩, nofun⟩ rfl rfl rfl

/-- A foreign write changes a device register only. -/
theorem State.Inv.deviceWrite_inv {s : State} (h : s.Inv) (a v : Byte) : (s.drop.deviceWrite a v).Inv :=
  { h with regs_wf := Memory.write_byte_wf _ _ _ h.regs_wf }

/-- Settles O5, event by event. -/
theorem stepKeepsInvariant : Obligations.StepKeepsInvariant := by
  unfold Obligations.StepKeepsInvariant
  intro s t inv hstep
  obtain ⟨hc, ⟨-, rfl⟩ | ⟨a, rest, -, rfl⟩ | ⟨width, off, rest, -, -, rfl⟩ | ⟨width, off, v, rest, -, -, -, rfl⟩ |
    ⟨width, v, rest, -, -, -, hstart⟩ | ⟨landed, rest, -, rfl⟩ | ⟨a, v, rest, -, rfl⟩⟩ := step_cases hstep
  · exact inv
  · exact inv.resume_inv hc a
  · exact { inv with }
  · exact { inv with }
  · have dropped : s.drop.Inv := { inv with }
    rcases startCommand_cases exec v s.drop with ⟨i, hd, eq⟩ | ⟨e, -, eq⟩ <;> rw [eq] at hstart
    · exact dropped.exec_inv (s := s.drop) hc hd hstart
    · cases hstart
      have lawful : (s.drop.accept v).fresh.Lawful := { inv.lawful with }
      exact lawful.finish_inv nofun
  · have dropped : s.drop.Inv := { inv with }
    exact dropped.engineReset_inv landed
  · exact inv.deviceWrite_inv a v

end Sys2Proof.Machine
end

section
/-! The host port (20_memory.md R50 to R52): what a step does with a host access, which events leave an idle engine's
result alone, and how a command word is run. -/

namespace Sys2Proof.Machine

/-! ### Steps on a host access -/

/-- The next input taken, with the inputs written out. -/
theorem State.drop_eq {s : State} {e : Input} {rest : List Input} (hin : s.inputs = e :: rest) :
    s.drop = { s with inputs := rest } := by
  rw [State.drop, hin, List.tail_cons]

theorem hostAccessOk_iff {width : Nat} {off : Word} :
    hostAccessOk width off = true ↔ width = 32 ∧ off.toNat % 4 = 0 := by
  simp [hostAccessOk]

/-- The four registers lie at multiples of 4. -/
theorem hostAccessOk_register {off : Word} (register : off.toNat ∈ [0x0, 0x4, 0x8, 0xC]) :
    hostAccessOk 32 off = true := by
  refine hostAccessOk_iff.2 ⟨rfl, ?_⟩
  simp only [List.mem_cons, List.not_mem_nil, or_false] at register
  omega

/-- Any other access is refused (U1). -/
theorem hostAccessOk_eq_false {width : Nat} {off : Word} (bad : width ≠ 32 ∨ off.toNat % 4 ≠ 0) :
    hostAccessOk width off = false := by
  rw [Bool.eq_false_iff, ne_eq, hostAccessOk_iff]
  tauto

section
variable {s : State} {width : Nat} {off v : Word} {rest : List Input}

/-- A defined host read delivers what it loads and changes nothing else (R52). -/
theorem step_hostRead (hc : s.cfg.wf = true) (hin : s.inputs = .hostRead width off :: rest)
    (access : hostAccessOk width off = true) :
    step s = .next { s with inputs := rest, hostReply := some (hostLoad s off) } := by
  rw [step, stepEvent, if_pos hc, hin]
  simp only [access, if_true, State.drop_eq hin]
  rfl

/-- A defined host write is a store on the state with the input taken (R51). -/
theorem step_hostWrite (hc : s.cfg.wf = true) (hin : s.inputs = .hostWrite width off v :: rest)
    (access : hostAccessOk width off = true) : step s = hostStore exec off v { s with inputs := rest } := by
  rw [step, stepEvent, if_pos hc, hin]
  simp only [access, if_true, State.drop_eq hin]

theorem step_hostRead_refused (hc : s.cfg.wf = true) (hin : s.inputs = .hostRead width off :: rest)
    (access : hostAccessOk width off = false) : step s = .refused (.unsupportedHostAccess width off) := by
  rw [step, stepEvent, if_pos hc, hin]
  simp [access]

theorem step_hostWrite_refused (hc : s.cfg.wf = true) (hin : s.inputs = .hostWrite width off v :: rest)
    (access : hostAccessOk width off = false) : step s = .refused (.unsupportedHostAccess width off) := by
  rw [step, stepEvent, if_pos hc, hin]
  simp [access]

/-- A store at `CMD` while idle starts the command. -/
theorem hostStore_starts {run : Instr → State → Host.Outcome State Fault Refusal} (idle : s.busy = false) :
    hostStore run 0 v s = startCommand run v s := if_pos ⟨rfl, idle⟩

/-- Every other store has no effect. -/
theorem hostStore_ignored {run : Instr → State → Host.Outcome State Fault Refusal} (other : ¬(off = 0 ∧ s.busy = false)) :
    hostStore run off v s = .next s := if_neg other

/-- The word an idle engine's host writes to `CMD` is accepted and run up to its first wait. -/
theorem step_command (hc : s.cfg.wf = true) (idle : s.busy = false) (hin : s.inputs = .hostWrite 32 0 v :: rest) :
    step s = startCommand exec v { s with inputs := rest } := by
  rw [step_hostWrite hc hin (by decide)]
  exact hostStore_starts idle

/-- A word that decodes runs its command. -/
theorem startCommand_ok {run : Instr → State → Host.Outcome State Fault Refusal} {i : Instr} (hd : decode v = .ok i) :
    startCommand run v s = run i (s.accept v) := by
  simp only [startCommand, hd]

/-- A word that does not decode ends with `ERR_ILLEGAL_OP` and issues nothing (R87). -/
theorem startCommand_error {run : Instr → State → Host.Outcome State Fault Refusal} {e : DecodeError}
    (hd : decode v = .error e) :
    startCommand run v s = .next { s.done s.regs 3 0 [] s.inputs with cmd := v } := by
  simp only [startCommand, hd]
  rfl

end

/-- Settles O9: both clauses are a write to `CMD` of an idle engine, and the word is one that decodes. -/
theorem stepRunsDecodedCommand : Obligations.StepRunsDecodedCommand := by
  unfold Obligations.StepRunsDecodedCommand
  refine ⟨?written, ?placed⟩
  case written =>
    intro s w i rest hc idle hin hd
    rw [step_command hc idle hin, startCommand_ok hd]
    rfl
  case placed =>
    intro s w i hc hw htable
    have hd : decode (BitVec.ofNat 32 w) = .ok i := by
      rw [decodeTableWord, Nat.mod_eq_of_lt hw] at htable
      cases h : decode (BitVec.ofNat 32 w) with
      | ok j => rw [h] at htable; exact congrArg _ (Option.some.inj htable)
      | error e => rw [h] at htable; cases htable
    rw [State.withFetchWord, Nat.mod_eq_of_lt hw, step_command (s := placeCommand _ s) hc rfl rfl, startCommand_ok hd]
    rfl

/-- Settles O14: a store at `CMD` while idle starts the command, whether the word decodes or not. -/
theorem hostWrites : Obligations.HostWrites := by
  unfold Obligations.HostWrites
  intro s off v rest hc hin register
  split
  · next starts =>
    obtain ⟨rfl, idle⟩ := starts
    rw [step_command hc idle hin]
    cases hd : decode v with
    | ok i => exact startCommand_ok hd
    | error e => exact startCommand_error hd
  · next other =>
    rw [step_hostWrite hc hin (hostAccessOk_register register)]
    exact hostStore_ignored other

/-- An offset from 0x10 on has no register, and reads as 0 (log 7). -/
theorem hostLoad_no_register {s : State} {off : Word} (h : 0x10 ≤ off.toNat) : hostLoad s off = 0 := by
  unfold hostLoad
  split
  case h_5 => rfl
  all_goals omega

/-- Settles O16: an access is refused or is a load or a store where there is no register. -/
theorem unsupportedHostAccessRefused : Obligations.UnsupportedHostAccessRefused := by
  unfold Obligations.UnsupportedHostAccessRefused
  intro s width off v rest hc
  refine ⟨fun bad => ?refused, fun ⟨word, aligned, above⟩ => ?no_register⟩
  case refused =>
    have access := hostAccessOk_eq_false bad
    exact ⟨fun hin => step_hostRead_refused hc hin access, fun hin => step_hostWrite_refused hc hin access⟩
  case no_register =>
    have access := hostAccessOk_iff.2 ⟨word, aligned⟩
    refine ⟨fun hin => ?_, fun hin => ?_⟩
    · rw [step_hostRead hc hin access, hostLoad_no_register above]
    · have not_cmd : off ≠ 0 := by rintro rfl; exact absurd above (by decide)
      rw [step_hostWrite hc hin access]
      exact hostStore_ignored fun h => not_cmd h.1

/-! ### What the host reads -/

/-- `CSR` as a number: `BUSY` in bit 0, `READY` in bit 1 (R30). -/
theorem csrWord_toNat (ready busy : Bool) : (csrWord ready busy).toNat = 2 * ready.toNat + busy.toNat := by
  cases ready <;> cases busy <;> decide

/-- `RES` as a number: the status zero-extended (R22). -/
theorem resWord_toNat (res : BitVec 4) : (resWord res).toNat = res.toNat := by
  rw [resWord, BitVec.toNat_setWidth]
  omega

/-- The four registers as the host reads them (R52). -/
theorem hostLoad_register (s : State) (off : Word) :
    (off.toNat = 0x0 → hostLoad s off = s.cmd) ∧ (off.toNat = 0x4 → hostLoad s off = resWord s.res) ∧
    (off.toNat = 0x8 → hostLoad s off = s.data) ∧ (off.toNat = 0xC → hostLoad s off = csrWord s.ready s.busy) := by
  refine ⟨?_, ?_, ?_, ?_⟩ <;> intro h <;> rw [hostLoad, h] <;> rfl

/-! ### Which steps change the result -/

/-- A program that has run has reported nothing, or has left the engine idle. -/
theorem Prog.run_result_kept_or_idle (p : Prog) (s : State) :
    ((p.run s).res = s.res ∧ (p.run s).data = s.data) ∨ (p.run s).busy = false := by
  rcases p.run_waits_or_completes s with ⟨q, -, -, res, data⟩ | ⟨st, -, -, idle, -⟩
  · exact .inl ⟨res, data⟩
  · exact .inr idle

/-- A step keeps the result, or leaves the engine idle. -/
theorem step_result_kept_or_idle {s t : State} (hstep : step s = .next t) :
    (t.res = s.res ∧ t.data = s.data) ∨ t.busy = false := by
  obtain ⟨-, ⟨-, rfl⟩ | ⟨a, rest, -, rfl⟩ | ⟨width, off, rest, -, -, rfl⟩ | ⟨width, off, v, rest, -, -, -, rfl⟩ |
    ⟨width, v, rest, -, -, -, hstart⟩ | ⟨landed, rest, -, rfl⟩ | ⟨a, v, rest, -, rfl⟩⟩ := step_cases hstep
  · exact .inl ⟨rfl, rfl⟩
  · rcases resume_cases a s with ⟨-, eq⟩ | ⟨q, i, -, -, eq⟩ | ⟨q, e, -, -, eq⟩ <;> rw [eq]
    · exact .inl ⟨rfl, rfl⟩
    · exact Prog.run_result_kept_or_idle _ (s.answered q.op a)
    · exact .inr rfl
  · exact .inl ⟨rfl, rfl⟩
  · exact .inl ⟨rfl, rfl⟩
  · rcases startCommand_cases exec v s.drop with ⟨i, -, eq⟩ | ⟨e, -, eq⟩ <;> rw [eq] at hstart
    · rcases exec_cases hstart with ⟨-, rfl⟩ | ⟨-, -, -, rfl⟩ | ⟨-, -, rfl⟩
      · exact .inr rfl
      · exact .inr rfl
      · exact Prog.run_result_kept_or_idle _ (s.drop.accept v).fresh
    · cases hstart
      exact .inr rfl
  · exact .inr rfl
  · exact .inl ⟨rfl, rfl⟩

/-- An event that can end an idle engine's result: a write to `CMD` or an engine reset. -/
def Input.EndsResult (e : Input) : Prop := (∃ width v, e = .hostWrite width 0 v) ∨ ∃ landed, e = .engineReset landed

/-- The engine is idle, and holds the result that `s` holds. -/
def State.KeepsResult (s t : State) : Prop := t.res = s.res ∧ t.data = s.data ∧ t.busy = false

/-- Any other event leaves an idle engine idle, with its result, and is taken. -/
theorem State.Inv.idle_step {s t : State} (inv : s.Inv) (idle : s.busy = false)
    (kept : ∀ e, s.inputs.head? = some e → ¬e.EndsResult) (hstep : step s = .next t) :
    s.KeepsResult t ∧ t.inputs = s.inputs.tail := by
  have pending : s.pending = none := by
    have := inv.busy_iff_pending
    rwa [idle, eq_comm, Option.isSome_eq_false_iff, Option.isNone_iff_eq_none] at this
  obtain ⟨-, ⟨hin, rfl⟩ | ⟨a, rest, -, rfl⟩ | ⟨width, off, rest, -, -, rfl⟩ | ⟨width, off, v, rest, -, -, -, rfl⟩ |
    ⟨width, v, rest, hin, -, -, -⟩ | ⟨landed, rest, hin, -⟩ | ⟨a, v, rest, -, rfl⟩⟩ := step_cases hstep
  · exact ⟨⟨rfl, rfl, idle⟩, by rw [hin]; rfl⟩
  · rw [resume, pending]
    exact ⟨⟨rfl, rfl, idle⟩, rfl⟩
  · exact ⟨⟨rfl, rfl, idle⟩, rfl⟩
  · exact ⟨⟨rfl, rfl, idle⟩, rfl⟩
  · exact absurd (.inl ⟨width, v, rfl⟩) (kept _ (by rw [hin]; rfl))
  · exact absurd (.inr ⟨landed, rfl⟩) (kept _ (by rw [hin]; rfl))
  · exact ⟨⟨rfl, rfl, idle⟩, rfl⟩

/-- A run of one step more is a step and the run from there. -/
theorem core_run_succ {M : Host.Core} {n : Nat} {s t : M.State} (h : M.run (n + 1) s = .next t) :
    ∃ u, M.step s = .next u ∧ M.run n u = .next t := by
  rw [Host.Core.run] at h
  cases hs : M.step s with
  | next u => exact ⟨u, rfl, by rwa [hs] at h⟩
  | fault r => rw [hs] at h; cases h
  | refused r => rw [hs] at h; cases h

/-- The same of any number of steps. -/
theorem State.Inv.idle_run {n : Nat} {s t : State} (inv : s.Inv) (idle : s.busy = false)
    (kept : ∀ e ∈ s.inputs, ¬e.EndsResult) (hrun : Sys2Proof.core.run n s = .next t) : s.KeepsResult t := by
  induction n generalizing s with
  | zero =>
    cases hrun
    exact ⟨rfl, rfl, idle⟩
  | succ n ih =>
    obtain ⟨u, hstep, hrun⟩ := core_run_succ hrun
    obtain ⟨⟨res, data, idle'⟩, inputs⟩ := inv.idle_step idle (fun e he => kept e (List.mem_of_mem_head? he)) hstep
    obtain ⟨res', data', idle''⟩ := ih (stepKeepsInvariant s u inv hstep) idle'
      (fun e he => kept e (List.mem_of_mem_tail (inputs ▸ he))) hrun
    exact ⟨res'.trans res, data'.trans data, idle''⟩

/-- Settles O15: the load of each register, and that only a command or a reset ends a result. -/
theorem hostReads : Obligations.HostReads := by
  unfold Obligations.HostReads
  refine ⟨?load, ?changes, ?one_step, ?any_run⟩
  case load =>
    intro s off rest hc hin register
    obtain ⟨cmd, res, data, csr⟩ := hostLoad_register s off
    refine ⟨hostLoad s off, step_hostRead hc hin (hostAccessOk_register register), cmd, fun h => ?_, data, fun h => ?_⟩
    · rw [res h, resWord_toNat]
    · rw [csr h, csrWord_toNat]
  case changes =>
    intro s t hstep changed
    refine (step_result_kept_or_idle hstep).resolve_left fun ⟨res, data⟩ => ?_
    exact changed.elim (absurd res) (absurd data)
  case one_step =>
    intro s t inv idle no_write no_reset hstep
    refine (inv.idle_step idle (fun e head => ?_) hstep).1
    rintro (⟨width, v, rfl⟩ | ⟨landed, rfl⟩)
    · exact no_write width v head
    · exact no_reset landed head
  case any_run =>
    intro n s t inv idle kept hrun
    refine inv.idle_run idle (fun e he => ?_) hrun
    rintro (⟨width, v, rfl⟩ | ⟨landed, rfl⟩)
    · exact (kept _ he).1 width v rfl
    · exact (kept _ he).2 landed rfl

end Sys2Proof.Machine
end

section
/-! The device's registers (20_memory.md R53, R62): a field put and got bit by bit, and what the device answers to a read
of each kind of register. -/

namespace Sys2Proof

/-! ### Field primitives bit by bit (R62) -/

theorem lowMask_getLsbD (w k : Nat) : (lowMask w).getLsbD k = decide (k < 8 ∧ k < w) := by
  simp [lowMask, BitVec.getLsbD_ofNat, Nat.testBit_two_pow_sub_one]

namespace Field

variable {f : Field}

/-- The mask's bits are the field's positions. -/
theorem mask_getLsbD (fits : f.lsb + f.w ≤ 8) (k : Nat) :
    f.mask.getLsbD k = decide (f.lsb ≤ k ∧ k < f.lsb + f.w) := by
  rw [mask, BitVec.getLsbD_shiftLeft, lowMask_getLsbD, Bool.eq_iff_iff]
  simp only [Bool.and_eq_true, Bool.not_eq_true', decide_eq_true_eq, decide_eq_false_iff_not]
  omega

/-- Bit `k` of a field's value is bit `lsb + k` of the byte. -/
theorem get_getLsbD (fits : f.lsb + f.w ≤ 8) (b : Byte) (k : Nat) :
    (f.get b).getLsbD k = (decide (k < f.w) && b.getLsbD (f.lsb + k)) := by
  rw [get, BitVec.getLsbD_and, BitVec.getLsbD_ushiftRight, lowMask_getLsbD, Bool.and_comm]
  congr 1
  rw [decide_eq_decide]
  omega

/-- A put writes the value's bits inside the mask and keeps the byte's outside it. -/
theorem put_getLsbD (fits : f.lsb + f.w ≤ 8) (b v : Byte) (k : Nat) :
    (f.put b v).getLsbD k = if f.mask.getLsbD k then v.getLsbD (k - f.lsb) else b.getLsbD k := by
  rw [put, BitVec.getLsbD_or, BitVec.getLsbD_and, BitVec.getLsbD_and, BitVec.getLsbD_not, BitVec.getLsbD_shiftLeft]
  cases inside : f.mask.getLsbD k with
  | false =>
    simpa using fun h : b.getLsbD k = true => BitVec.lt_of_getLsbD h
  | true =>
    rw [mask_getLsbD fits, decide_eq_true_eq] at inside
    have : k < 8 := by omega
    simp [this, inside.1]

/-- The bits of a value that fits the field are below its width. -/
theorem getLsbD_eq_false_of_fits {v : Byte} (hv : v.toNat < 2 ^ f.w) {k : Nat} (hk : f.w ≤ k) :
    v.getLsbD k = false :=
  Nat.testBit_lt_two_pow (hv.trans_le (Nat.pow_le_pow_right two_pos hk))

/-- The field got is the field put, for a value that fits. -/
theorem get_put (fits : f.lsb + f.w ≤ 8) (b : Byte) {v : Byte} (hv : v.toNat < 2 ^ f.w) : f.get (f.put b v) = v := by
  refine BitVec.eq_of_getLsbD_eq fun k _ => ?_
  rw [get_getLsbD fits, put_getLsbD fits, mask_getLsbD fits]
  by_cases hk : k < f.w
  · simp [hk]
  · simp [hk, getLsbD_eq_false_of_fits hv (not_lt.1 hk)]

/-- The field's value as a number: the byte without the bits below the field, modulo its width. -/
theorem get_toNat (fits : f.lsb + f.w ≤ 8) (b : Byte) : (f.get b).toNat = b.toNat / 2 ^ f.lsb % 2 ^ f.w := by
  have mask_lt : 2 ^ f.w - 1 < 2 ^ 8 := by
    have := Nat.pow_le_pow_right two_pos (show f.w ≤ 8 by omega)
    omega
  rw [get, lowMask, BitVec.toNat_and, BitVec.toNat_ushiftRight, BitVec.toNat_ofNat, Nat.mod_eq_of_lt mask_lt,
    Nat.and_two_pow_sub_one_eq_mod, Nat.shiftRight_eq_div_pow]

end Field

/-- Settles O21: bit by bit a put is the value inside the mask and the byte outside it. -/
theorem fieldPutGet : Obligations.FieldPutGet := by
  unfold Obligations.FieldPutGet
  intro f b v _ fits
  refine ⟨Field.get_put fits b, Field.mask_getLsbD fits, fun k outside => ?_, Field.get_toNat fits b⟩
  rw [Field.put_getLsbD fits, outside]
  rfl

namespace Machine

/-! ### What the device answers (R53) -/

/-- The byte of a single read. -/
theorem State.reply_readOne_lo (s : State) (r : Byte) (a : Answer) : (s.reply (.readOne r) a).lo = s.devByte r a.b0 := rfl

/-- The device after a write, whatever its outcome: everything but the registers as before. -/
def State.written (s : State) (r v : Byte) (ok landed : Bool) : State :=
  { s with regs := s.regsAfter (.writeOne r v) ok landed }

/-- After a write a control register holds the byte written, if the write succeeded or its byte landed, and otherwise what
it held (R53 items 2 and 3). -/
theorem State.written_reads {s : State} (hc : s.cfg.wf = true) (regs : Memory.wf s.regs) {r : Byte}
    (hr : r ∈ s.cfg.controlAddrs) (v : Byte) (ok landed : Bool) (a : Answer) :
    ((s.written r v ok landed).reply (.readOne r) a).lo = if ok || landed then v else (s.reply (.readOne r) a).lo := by
  rw [reply_readOne_lo, reply_readOne_lo, devByte_control (s := s.written r v ok landed) hc hr, devByte_control hc hr,
    written, regsAfter]
  split
  · exact Memory.read_write_same _ _ _ regs
  · rfl

/-- A write leaves every other control register as it was. -/
theorem State.written_reads_other {s : State} (hc : s.cfg.wf = true) {r r' : Byte} (hr' : r' ∈ s.cfg.controlAddrs)
    (ne : r' ≠ r) (v : Byte) (ok landed : Bool) (a : Answer) :
    ((s.written r v ok landed).reply (.readOne r') a).lo = (s.reply (.readOne r') a).lo := by
  rw [reply_readOne_lo, reply_readOne_lo, devByte_control (s := s.written r v ok landed) hc hr', devByte_control hc hr',
    written, regsAfter]
  split
  · exact Memory.read_write_other _ _ _ _ fun e => ne (BitVec.eq_of_toNat_eq e)
  · rfl

/-- Settles O22, kind by kind. -/
theorem deviceAnswersByKind : Obligations.DeviceAnswersByKind := by
  unfold Obligations.DeviceAnswersByKind
  intro s a hc regs
  refine ⟨?control, reply_whoAmI_lo s a, fun r hr => ?draw, fun r => ?ok_bit, fun r => ?reads⟩
  case control =>
    intro r hr v ok landed r' hr'
    have reads := State.written_reads hc regs hr v ok landed a
    refine ⟨?_, ?_, fun ne => State.written_reads_other hc hr' ne v ok landed a⟩
    · rintro rfl
      exact reads
    · rintro rfl
      exact reads
  case draw =>
    rw [State.reply_readOne_lo, State.devByte_draw hc hr]
  case ok_bit => exact ⟨s.reply_ok _ a, s.reply_ok _ a, fun v => s.reply_ok _ a⟩
  case reads => exact ⟨s.regsAfter_readOne r a.ok a.landed, s.regsAfter_readBurst r a.ok a.landed⟩

end Machine
end Sys2Proof
end

section
/-! A suspended command (20_memory.md R54, R66): running a program over answers that stand next is the same as running it
over the first of them and going on with each further one as it comes. -/

namespace Sys2Proof.Machine

/-- The state with other inputs to come. -/
def State.withInputs (s : State) (inputs : List Input) : State := { s with inputs := inputs }

@[simp] theorem State.fresh_withInputs (s : State) (l : List Input) : (s.withInputs l).fresh = s.fresh.withInputs l := rfl
@[simp] theorem progOf_withInputs (i : Instr) (s : State) (l : List Input) : progOf i (s.withInputs l) = progOf i s := rfl

/-- The engine's own steps before a transaction were taken when it was issued. -/
theorem Prog.after_setReady_append (b : Bool) (p : Prog) (rs : List Reply) (r : Reply) :
    (setReady b p).after (rs ++ [r]) = p.after (rs ++ [r]) := by
  cases rs <;> rfl
theorem Prog.after_bump_append (k : Counter) (p : Prog) (rs : List Reply) (r : Reply) :
    (bump k p).after (rs ++ [r]) = p.after (rs ++ [r]) := by
  cases rs <;> rfl

/-- A program that waits after the answers `xs` has had some replies to them; with one answer more next to them it goes
on from where it waits. -/
theorem Prog.run_resumes {p : Prog} {s w : State} {q : Request} {xs : List Answer} (a : Answer) (rest : List Input)
    (hw : p.run (s.withInputs (xs.map .answer)) = w) (waits : w.pending = some q) :
    ∃ rs, w.temps = s.temps ++ rs ∧
      p.run (s.withInputs (xs.map .answer ++ .answer a :: rest)) =
        (p.after (rs ++ [w.reply q.op a])).run ((w.withInputs (.answer a :: rest)).answered q.op a) := by
  induction p generalizing s xs with
  | finish st d =>
    subst hw
    cases waits
  | setReady b p ih =>
    obtain ⟨rs, temps, resumes⟩ := ih (s := s.setReady b) hw
    exact ⟨rs, temps, by rw [after_setReady_append]; exact resumes⟩
  | bump k p ih =>
    have bumped (l : List Input) : (s.withInputs l).bump k = (s.bump k).withInputs l := by cases k <;> rfl
    rw [run_bump, bumped] at hw
    obtain ⟨rs, temps, resumes⟩ := ih hw
    exact ⟨rs, by simpa using temps, by rw [run_bump, bumped, after_bump_append]; exact resumes⟩
  | xfer op k ih =>
    cases xs with
    | nil =>
      subst hw
      obtain rfl : _ = q := Option.some.inj waits
      refine ⟨[], (List.append_nil _).symm, ?_⟩
      rw [List.nil_append, after_xfer_cons, after_nil]
      rfl
    | cons x xs =>
      obtain ⟨rs, temps, resumes⟩ := ih _ (s := s.transact op x) hw
      exact ⟨s.reply op x :: rs, by simpa using temps, resumes⟩

/-- The program of a command that comes to a transaction is given by the configuration. -/
theorem progOf_eq_of_request {s t : State} (cfg : t.cfg = s.cfg) {i : Instr} {rs : List Reply}
    (waits : ((progOf i s).after rs).request ≠ none) : progOf i t = progOf i s := by
  cases i with
  | getAllones a | getOtherfail a => exact absurd (onOperand_complete_after_request _ _ rs) waits
  | _ => simp only [progOf, cfg]

/-- A well-formed command that has the `READY` it needs runs its program (R89). -/
theorem exec_of_dispatched {i : Instr} {s : State} (hwf : i.wf = true)
    (dispatched : i.needsReady = true → s.ready = true) :
    exec i s = .next ((progOf i s).run s.fresh) := by
  obtain ⟨α, o, k, hexec, -⟩ := exec_eq_launch i s
  obtain ⟨t, hnext⟩ := launch_next o i.needsReady k s
  rw [← hexec] at hnext
  rcases exec_cases hnext with ⟨invalid, -⟩ | ⟨-, needs, not_ready, -⟩ | ⟨-, -, rfl⟩
  · rw [hwf] at invalid
    cases invalid
  · rw [dispatched needs] at not_ready
    cases not_ready
  · exact hnext

/-- A command that waits has passed dispatch. -/
theorem exec_dispatched_of_pending {i : Instr} {s t : State} (h : exec i s = .next t) (waits : t.pending ≠ none) :
    i.wf = true ∧ (i.needsReady = true → s.ready = true) ∧ t = (progOf i s).run s.fresh := by
  rcases exec_cases h with ⟨-, rfl⟩ | ⟨-, -, -, rfl⟩ | dispatched
  · exact absurd rfl waits
  · exact absurd rfl waits
  · exact dispatched

/-- The answer to the transaction a command waits for. -/
theorem step_answer {s : State} {a : Answer} {rest : List Input} {q : Request} {i : Instr} (hc : s.cfg.wf = true)
    (hin : s.inputs = .answer a :: rest) (hp : s.pending = some q) (hd : decode s.cmd = .ok i) :
    step s = .next (((progOf i s).after (s.temps ++ [s.reply q.op a])).run (s.answered q.op a)) := by
  rw [step, stepEvent, if_pos hc, hin]
  simp only [resume, hp, hd, State.answered_temps]

/-- A command that waits after the answers `xs` goes on, with one answer more next to them, from where it waits. -/
theorem exec_resumes {i : Instr} {s w : State} {q : Request} {xs : List Answer} (a : Answer) (rest : List Input)
    (hexec : exec i (s.withInputs (xs.map .answer)) = .next w) (waits : w.pending = some q) :
    exec i (s.withInputs (xs.map .answer ++ .answer a :: rest)) =
      .next (((progOf i w).after (w.temps ++ [w.reply q.op a])).run
        ((w.withInputs (.answer a :: rest)).answered q.op a)) := by
  obtain ⟨hwf, dispatched, hw⟩ := exec_dispatched_of_pending hexec (by simp [waits])
  obtain ⟨-, -, cfg⟩ := exec_keeps hexec
  rw [progOf_withInputs, State.fresh_withInputs] at hw
  obtain ⟨-, had, -, request, -⟩ := Prog.run_pending (hw ▸ waits)
  obtain ⟨rs, temps, resumes⟩ := Prog.run_resumes (s := s.fresh) a rest hw.symm waits
  rw [State.fresh_temps, List.nil_append] at temps
  have ran (l : List Input) : exec i (s.withInputs l) = .next ((progOf i s).run (s.fresh.withInputs l)) :=
    exec_of_dispatched (s := s.withInputs l) hwf dispatched
  rw [ran, resumes, temps, progOf_eq_of_request (t := w) cfg (rs := had) (by simp [request]), progOf_withInputs]

/-- Settles O49: the state in which the command waits holds the replies it has had, and its program goes on from them. -/
theorem suspendedCommandResumes : Obligations.SuspendedCommandResumes := by
  unfold Obligations.SuspendedCommandResumes
  intro i s w xs a rest hc hd hexec waits
  obtain ⟨q, pending⟩ := Option.ne_none_iff_exists'.1 waits
  obtain ⟨cmd, -, cfg⟩ := exec_keeps hexec
  have step_eq := step_answer (s := w.withInputs (.answer a :: rest)) (cfg ▸ hc) rfl pending (cmd ▸ hd)
  exact step_eq.trans (exec_resumes a rest hexec pending).symm

end Sys2Proof.Machine
end

section
/-! The encoding of commands (30_encoding.md R80, R81, R87, R91): a word is its opcode and its operand, it decodes to the
one command that has both, and to none where its opcode lies in a gap of the opcode map. -/

namespace Sys2Proof

/-! ### The two fields of a word -/

theorem opcodeOf_toNat (w : Word) : (opcodeOf w).toNat = w.toNat / 2 ^ 24 := by
  have := w.isLt
  simp only [opcodeOf, BitVec.extractLsb'_toNat, Nat.shiftRight_eq_div_pow]
  omega

theorem operandOf_toNat (w : Word) : (operandOf w).toNat = w.toNat % 2 ^ 24 := by
  simp [operandOf, BitVec.extractLsb'_toNat]

/-- A word has no bits besides its opcode and its operand (R80). -/
theorem word_ext {v w : Word} (opcode : opcodeOf v = opcodeOf w) (operand : operandOf v = operandOf w) : v = w := by
  have div : v.toNat / 2 ^ 24 = w.toNat / 2 ^ 24 := by rw [← opcodeOf_toNat, ← opcodeOf_toNat, opcode]
  have mod : v.toNat % 2 ^ 24 = w.toNat % 2 ^ 24 := by rw [← operandOf_toNat, ← operandOf_toNat, operand]
  apply BitVec.eq_of_toNat_eq
  omega

/-- The word of a command holds its opcode and its operand. -/
theorem encode_fields (i : Instr) : opcodeOf (encode i) = i.opcode ∧ operandOf (encode i) = i.operand :=
  Laws.fields_of_append i.opcode i.operand

/-! ### Decoding -/

/-- A word with the opcode and the operand of a command decodes to it. -/
theorem decode_of_fields {w : Word} {i : Instr} (opcode : opcodeOf w = i.opcode) (operand : operandOf w = i.operand) :
    decode w = .ok i := by
  rw [decode, opcode, operand]
  cases i <;> rfl

/-- A word decodes only to the command whose opcode and operand it holds: one case per row of R81, and the last row
answers no command. -/
theorem fields_of_decode {w : Word} {i : Instr} (h : decode w = .ok i) :
    opcodeOf w = i.opcode ∧ operandOf w = i.operand := by
  unfold decode at h
  split at h
  case h_31 => cases h
  all_goals
    next row =>
      cases h
      exact ⟨BitVec.eq_of_toNat_eq row, rfl⟩

@[simp] theorem decode_encode (i : Instr) : decode (encode i) = .ok i :=
  decode_of_fields (encode_fields i).1 (encode_fields i).2

theorem encode_of_decode {w : Word} {i : Instr} (h : decode w = .ok i) : encode i = w := by
  obtain ⟨opcode, operand⟩ := fields_of_decode h
  obtain ⟨encoded_opcode, encoded_operand⟩ := encode_fields i
  exact word_ext (encoded_opcode.trans opcode.symm) (encoded_operand.trans operand.symm)

/-- Settles O6: a word and a command that have the same two fields determine each other. -/
theorem decodeEncodeRoundTrip : Obligations.DecodeEncodeRoundTrip := by
  unfold Obligations.DecodeEncodeRoundTrip
  exact ⟨decode_encode, fun _ _ => encode_of_decode⟩

/-- Settles O7, by evaluation of the nine words. -/
theorem sampleWordsDecode : Obligations.SampleWordsDecode := by
  unfold Obligations.SampleWordsDecode
  decide

/-! ### The gaps of the opcode map -/

/-- The opcodes that R87 lists as none of the map's. -/
def OpcodeGap (op : Nat) : Prop :=
  op = 0x00 ∨ (0x02 ≤ op ∧ op ≤ 0x0F) ∨ (0x1A ≤ op ∧ op ≤ 0x1F) ∨ (0x28 ≤ op ∧ op ≤ 0x2F) ∨
  (0x34 ≤ op ∧ op ≤ 0x3F) ∨ (0x42 ≤ op ∧ op ≤ 0x47) ∨ (0x4A ≤ op ∧ op ≤ 0x4F) ∨ (0x51 ≤ op ∧ op ≤ 0x5F) ∨
  (0x62 ≤ op ∧ op ≤ 0xFF)

/-- No command's opcode lies in a gap. -/
theorem Instr.opcode_not_gap (i : Instr) : ¬OpcodeGap i.opcode.toNat := by
  cases i <;> simp [OpcodeGap, Instr.opcode]

/-- A word whose opcode lies in a gap is no command, whatever its operand (R87). -/
theorem decode_error_of_gap {w : Word} (gap : OpcodeGap (w.toNat / 2 ^ 24)) : ∃ e, decode w = .error e := by
  cases hd : decode w with
  | error e => exact ⟨e, rfl⟩
  | ok i =>
    rw [← opcodeOf_toNat, (fields_of_decode hd).1] at gap
    exact absurd gap i.opcode_not_gap

end Sys2Proof
end

section
/-! Dispatch of a command word (30_encoding.md R82, R87, R89, R90): the checks in their order, as one equation for `exec`
and from it the obligations on `exec` and on `step`. -/

namespace Sys2Proof.Machine

/-- Settles O8: a word in a gap does not decode, and ends where the opcode is checked. -/
theorem illegalOpcodeEndsIllegal : Obligations.IllegalOpcodeEndsIllegal := by
  unfold Obligations.IllegalOpcodeEndsIllegal
  intro s w rest hc idle hin gap
  obtain ⟨e, hd⟩ := decode_error_of_gap gap
  rw [step_command hc idle hin]
  exact startCommand_error hd

/-- Past the opcode check, the operand is checked first and `READY` second, and then the command's program runs (R89). -/
theorem exec_eq_dispatch (i : Instr) (s : State) :
    exec i s =
      if i.wf = false then .next (s.done s.regs 2 0 [] s.inputs)
      else if i.needsReady = true ∧ s.ready = false then .next (s.done s.regs 4 0 [] s.inputs)
      else .next ((progOf i s).run s.fresh) := by
  obtain ⟨α, operand, rule, hexec, hprog, hwf⟩ := exec_eq_launch_isSome i s
  rw [hexec, hprog, ← hwf]
  cases operand with
  | none => rfl
  | some v =>
    rw [launch]
    cases i.needsReady <;> cases s.ready <;> rfl

/-- An operand is in its class exactly where it is one of the values of R82. -/
theorem Instr.wf_iff (i : Instr) : i.wf = true ↔ i.operand.toNat ∈ i.cls.values := List.contains_iff_mem

/-- Settles O10: the two outcomes of the operand check. -/
theorem operandClassesEnforced : Obligations.OperandClassesEnforced := by
  unfold Obligations.OperandClassesEnforced
  intro i s
  change if i.operand.toNat ∈ i.cls.values then _ else _
  split
  · next accepted => exact exec_of_dispatched ((Instr.wf_iff i).2 accepted)
  · next outside =>
    rw [exec_eq_dispatch, if_pos (Bool.eq_false_iff.2 (mt (Instr.wf_iff i).1 outside))]

/-- Of the thirty commands exactly three do without `READY` (R90). -/
theorem Instr.needsReady_eq_false_iff (i : Instr) :
    i.needsReady = false ↔ (∃ a, i = .init a) ∨ (∃ a, i = .getAllones a) ∨ (∃ a, i = .getOtherfail a) := by
  cases i <;> simp [Instr.needsReady]

/-- Settles O11: the opcode is checked where the word is decoded, and the rest is `exec_eq_dispatch` on the state that has
accepted it. -/
theorem dispatchOrder : Obligations.DispatchOrder := by
  unfold Obligations.DispatchOrder
  refine ⟨?order, Instr.needsReady_eq_false_iff⟩
  intro s w rest hc idle hin
  rw [step_command hc idle hin]
  cases hd : decode w with
  | error e => exact startCommand_error hd
  | ok i =>
    rw [startCommand_ok hd]
    have dispatch := exec_eq_dispatch i (State.accept w { s with inputs := rest })
    dsimp only
    split
    · next invalid => exact dispatch.trans (if_pos invalid)
    · next valid =>
      split
      · next not_ready => exact dispatch.trans ((if_neg valid).trans (if_pos not_ready))
      · next dispatched => exact dispatch.trans ((if_neg valid).trans (if_neg dispatched))

/-- Settles O17: the configuration is checked before any event. -/
theorem illFormedConfigurationRefused : Obligations.IllFormedConfigurationRefused := by
  unfold Obligations.IllFormedConfigurationRefused
  refine ⟨fun s ill => ?_, by decide⟩
  rw [step, stepEvent, if_neg (by simp [ill])]

/-- Settles O18: the tables by evaluation, the policy by its one exception. -/
theorem xlRangeCodes : Obligations.XlRangeCodes := by
  unfold Obligations.XlRangeCodes
  refine ⟨by decide, by decide, by decide, fun m => ?_, fun m v not_g16 => ?_⟩
  · simp only [rangePolicy, true_and]
  · rw [rangePolicy, if_neg fun h => not_g16 h.1]

/-- Settles O19, by evaluation of the tables. -/
theorem gyroRangeCodes : Obligations.GyroRangeCodes := by
  unfold Obligations.GyroRangeCodes
  decide

end Sys2Proof.Machine
end

section
/-! The assembler (30_encoding.md R92, R93): the two forms of a line that give a word, and what an operand that is spelled
by its class can be. -/

namespace Sys2Proof.Machine

/-- A mnemonic names a constructor: the operand it is given is the command's, and the class does not depend on it (R93). -/
theorem mnemonic_operand_cls {m : List Char} {f : Operand → Instr} (h : mnemonic? m = some f) (a : Operand) :
    (f a).operand = a ∧ (f a).cls = (f 0).cls := by
  have each : ∀ e ∈ mnemonics, (e.2 a).operand = a ∧ (e.2 a).cls = (e.2 0).cls := by
    simp [mnemonics, Instr.operand, Instr.cls]
  obtain ⟨e, found, rfl⟩ := Option.map_eq_some_iff.1 h
  exact each e (List.mem_of_find?_eq_some found)

/-- A line that assembles is a mnemonic alone or a mnemonic and an operand, and gives the encoding of what they name. -/
theorem assembleLine_cases {line : List Char} {w : Word} (h : assembleLine line = some w) :
    (∃ m f, splitBlanks [] (line.takeWhile (· != ';')) = [m] ∧ mnemonic? m = some f ∧ w = encode (f 0)) ∨
    (∃ m o f a, splitBlanks [] (line.takeWhile (· != ';')) = [m, o] ∧ mnemonic? m = some f ∧
      operandText? (f 0).cls o = some a ∧ w = encode (f a)) := by
  unfold assembleLine at h
  split at h
  · next m words =>
    obtain ⟨f, named, coded⟩ := Option.bind_eq_some_iff.1 h
    split at coded
    · exact .inl ⟨m, f, words, named, (Option.some.inj coded).symm⟩
    · cases coded
  · next m o words =>
    obtain ⟨f, named, coded⟩ := Option.bind_eq_some_iff.1 h
    obtain ⟨a, operand, rfl⟩ := Option.map_eq_some_iff.1 coded
    exact .inr ⟨m, o, f, a, words, named, operand, rfl⟩
  · cases h

/-- An operand that is not written with `#` is in its class. -/
theorem operandText_accepts {c : OperandClass} {o : List Char} {a : Operand} (spelled : o.head? ≠ some '#')
    (h : operandText? c o = some a) : c.accepts a = true := by
  unfold operandText? at h
  split at h
  · exact absurd rfl spelled
  · obtain ⟨n, checked, rfl⟩ := Option.map_eq_some_iff.1 h
    obtain ⟨-, accepted⟩ := Option.filter_eq_some_iff.1 checked
    exact (Bool.and_eq_true_iff.1 accepted).2

/-- Settles O56: either form of a line gives an encoding, and the second a checked operand; the examples by evaluation. -/
theorem assembledLinesDecode : Obligations.AssembledLinesDecode := by
  unfold Obligations.AssembledLinesDecode
  refine ⟨?encodes, ?in_class, by decide, by decide, by decide, by decide⟩
  case encodes =>
    intro line w h
    rcases assembleLine_cases h with ⟨m, f, -, -, rfl⟩ | ⟨m, o, f, a, -, -, -, rfl⟩
    · exact ⟨f 0, rfl, decode_encode _⟩
    · exact ⟨f a, rfl, decode_encode _⟩
  case in_class =>
    intro line m o w words spelled h
    rcases assembleLine_cases h with ⟨m', f, words', -, -⟩ | ⟨m', o', f, a, words', named, text, rfl⟩
    · simp [words] at words'
    · obtain ⟨-, rfl⟩ : m = m' ∧ o = o' := by simpa [words] using words'
      obtain ⟨operand, cls⟩ := mnemonic_operand_cls named a
      refine ⟨f a, decode_encode _, ?_⟩
      rw [Instr.wf, operand, cls]
      exact operandText_accepts spelled text

end Sys2Proof.Machine
end

section
/-! Facts that the codec commands share: which registers and fields they name (30_encoding.md R95, R97), what a field's
value can be, a boolean and its stored bit (20_memory.md R64, R65), and a rate and its code (30_encoding.md R99). -/

namespace Sys2Proof

/-- The registers that commands name are control registers (R53 item 2). -/
theorem Cfg.regCtrlXl_control (c : Cfg) : c.regCtrlXl ∈ c.controlAddrs := by simp [controlAddrs]
theorem Cfg.regCtrlG_control (c : Cfg) : c.regCtrlG ∈ c.controlAddrs := by simp [controlAddrs]

/-- The fields that commands name are among the eleven of R95. -/
theorem Cfg.fXlOdr_mem (c : Cfg) : c.fXlOdr ∈ c.fields := by simp [fields]
theorem Cfg.fXlFs_mem (c : Cfg) : c.fXlFs ∈ c.fields := by simp [fields]
theorem Cfg.fXlFsmode_mem (c : Cfg) : c.fXlFsmode ∈ c.fields := by simp [fields]
theorem Cfg.fXlHp_mem (c : Cfg) : c.fXlHp ∈ c.fields := by simp [fields]
theorem Cfg.fGOdr_mem (c : Cfg) : c.fGOdr ∈ c.fields := by simp [fields]
theorem Cfg.fGFs_mem (c : Cfg) : c.fGFs ∈ c.fields := by simp [fields]
theorem Cfg.fGFs125_mem (c : Cfg) : c.fGFs125 ∈ c.fields := by simp [fields]

/-- A field's value fits the field. -/
theorem Field.get_lt {f : Field} (fits : f.lsb + f.w ≤ 8) (b : Byte) : (f.get b).toNat < 2 ^ f.w := by
  rw [get_toNat fits]
  exact Nat.mod_lt _ (Nat.two_pow_pos _)

/-- Two bytes that agree on a field's bits have the same value of the field. -/
theorem Field.get_congr {f : Field} (fits : f.lsb + f.w ≤ 8) {b b' : Byte}
    (same : ∀ k, f.mask.getLsbD k = true → b.getLsbD k = b'.getLsbD k) : f.get b = f.get b' := by
  refine BitVec.eq_of_getLsbD_eq fun k _ => ?_
  rw [get_getLsbD fits, get_getLsbD fits]
  by_cases hk : k < f.w
  · rw [same (f.lsb + k) (by simp [mask_getLsbD fits, hk])]
  · simp [hk]

/-- A bit of one field is no bit of another in the same register (R97). -/
theorem Cfg.mask_disjoint {c : Cfg} (hc : c.wf = true) {f g : Field} (hf : f ∈ c.fields) (hg : g ∈ c.fields) (ne : f ≠ g)
    (same : f.reg = g.reg) {k : Nat} (hk : g.mask.getLsbD k = true) : f.mask.getLsbD k = false := by
  have symm : Std.Symm fun f g : Field => f.reg = g.reg → f.mask &&& g.mask = 0 :=
    ⟨fun f g h e => by rw [BitVec.and_comm, h e.symm]⟩
  have disjoint := (Cfg.wf_disjoint hc).forall hf hg ne same
  simpa [hk] using congrArg (BitVec.getLsbD · k) disjoint

/-- A one-bit field is true where its stored bit, inverted if the descriptor says so, is 1 (R64). -/
theorem Field.getBool_eq_true_iff {f : Field} (fits : f.lsb + f.w ≤ 8) (one_bit : f.w = 1) (b : Byte) :
    f.getBool b = true ↔ f.get b = if f.inv then 0 else 1 := by
  have bit : f.get b = 0 ∨ f.get b = 1 := by
    have lt := get_lt fits b
    rw [one_bit] at lt
    have : (f.get b).toNat = 0 ∨ (f.get b).toNat = 1 := by omega
    exact this.imp BitVec.eq_of_toNat_eq BitVec.eq_of_toNat_eq
  rcases bit with h | h <;> cases hi : f.inv <;> simp [getBool, h, hi]

/-- The stored bit of a boolean is 0 where the boolean is what the descriptor inverts to (R65). -/
theorem Field.ofBool_eq (f : Field) (v : Bool) : f.ofBool v = if v = f.inv then 0 else 1 := by
  cases v <;> cases hi : f.inv <;> simp [ofBool, hi]

/-- A search by a key that is different for every entry finds the entry with that key. -/
theorem find_key_eq_some {α β : Type} [DecidableEq β] {l : List α} {f : α → β} (nodup : (l.map f).Nodup) {v : α}
    (hv : v ∈ l) : (l.find? fun x => f x == f v) = some v := by
  have listed : (l.find? fun x => f x == f v).isSome := List.find?_isSome.2 ⟨v, hv, beq_self_eq_true (f v)⟩
  obtain ⟨x, found⟩ := Option.isSome_iff_exists.1 listed
  have same : f x = f v := by simpa using List.find?_some found
  rw [found, List.inj_on_of_nodup_map nodup (List.mem_of_find?_eq_some found) hv same]

theorem XlRate.mem_all (v : XlRate) : v ∈ XlRate.all := by cases v <;> decide
theorem GRate.mem_all (v : GRate) : v ∈ GRate.all := by cases v <;> decide

/-- The rate of a rate's code is the rate (R99). -/
theorem XlOdrCodes.rate_code {c : Cfg} (hc : c.wf = true) (v : XlRate) : c.odrCodeXl.rate (c.odrCodeXl.code v) = some v := by
  obtain ⟨-, -, nodup, -⟩ := Cfg.wf_codes hc
  exact find_key_eq_some nodup v.mem_all
theorem GOdrCodes.rate_code {c : Cfg} (hc : c.wf = true) (v : GRate) : c.odrCodeG.rate (c.odrCodeG.code v) = some v := by
  obtain ⟨-, -, -, nodup⟩ := Cfg.wf_codes hc
  exact find_key_eq_some nodup v.mem_all

/-- A code that is no rate's has no rate (R99). -/
theorem XlOdrCodes.rate_eq_none {t : XlOdrCodes} {b : Byte} (h : ∀ v, t.code v ≠ b) : t.rate b = none :=
  List.find?_eq_none.2 fun v _ => by simpa using h v
theorem GOdrCodes.rate_eq_none {t : GOdrCodes} {b : Byte} (h : ∀ v, t.code v ≠ b) : t.rate b = none :=
  List.find?_eq_none.2 fun v _ => by simpa using h v

end Sys2Proof
end

section
/-! A command completed over answers that stand next (20_memory.md R63 to R65, 60_exceptions.md R278): the state in the
middle of a command, and for each helper of the pseudocode the rule by which a program that uses it comes to its end. -/

namespace Sys2Proof.Machine

/-- The state `s` in the middle of a command that has left the device's registers as `regs`, issued the transactions `ops`,
had the replies `temps` and has the inputs `inputs` to come. -/
def State.midway (s : State) (regs : List Host.Cell) (ops : List TxOp) (temps : List Reply) (inputs : List Input) : State :=
  { s with
    regs := regs, pending := none, temps := temps
    tx := ops.map fun op => ⟨s.cfg.devAddr, op⟩
    inputs := inputs }

/-- A program in the middle of a command, run over the inputs to come, ends in the state `t`, whatever the replies so far. -/
def Prog.Ends (p : Prog) (s : State) (regs : List Host.Cell) (ops : List TxOp) (inputs : List Input) (t : State) : Prop :=
  ∀ temps, p.run (s.midway regs ops temps inputs) = t

/-- A command begins in its own middle. -/
theorem State.fresh_eq_midway (s : State) : s.fresh = s.midway s.regs [] [] s.inputs := rfl

/-- One transaction more. -/
theorem State.midway_transact (s : State) (regs : List Host.Cell) (ops : List TxOp) (temps : List Reply) (op : TxOp)
    (a : Answer) (rest : List Input) :
    let m := s.midway regs ops temps (.answer a :: rest)
    m.transact op a = s.midway (m.regsAfter op a.ok a.landed) (ops ++ [op]) (temps ++ [m.reply op a]) rest := by
  simp only [State.midway, List.map_append]
  rfl

section
variable {s t : State} {regs : List Host.Cell} {ops : List TxOp} {rest : List Input} {a a1 a2 : Answer}

/-- `complete` ends the command with `OK` (R13). -/
theorem complete_ends (d : Word) : (complete d).Ends s regs ops rest (s.done regs 0 d ops rest) := fun _ => rfl

/-- `raise` ends the command with its status and data 0 (R13). -/
theorem raise_ends (st : Status) : (raise st).Ends s regs ops rest (s.done regs st.code 0 ops rest) := fun _ => rfl

/-- A successful `ReadReg` of a control register goes on with the byte held (R63, R53 item 2). -/
theorem readReg_ends {r : Byte} {k : Byte → Prog} (hc : s.cfg.wf = true) (hr : r ∈ s.cfg.controlAddrs) (ok : a.ok = true)
    (next : (k (Memory.read regs r.toNat)).Ends s regs (ops ++ [.readOne r]) rest t) :
    (readReg r k).Ends s regs ops (.answer a :: rest) t := by
  intro temps
  rw [readReg_run_ok rfl ok, State.devByte_control (s := s.midway _ _ _ _) hc hr, State.midway_transact]
  exact next _

/-- A successful `ReadField` goes on with the field's value in the byte held (R64). -/
theorem readField_ends {f : Field} {k : Byte → Prog} (hc : s.cfg.wf = true) (hf : f ∈ s.cfg.fields) (ok : a.ok = true)
    (next : (k (f.get (Memory.read regs f.reg.toNat))).Ends s regs (ops ++ [.readOne f.reg]) rest t) :
    (readField f k).Ends s regs ops (.answer a :: rest) t :=
  readReg_ends hc (Cfg.wf_field_control hc f hf) ok next

/-- A successful `ReadBool` goes on with the boolean that the byte held stands for (R64). -/
theorem readBool_ends {f : Field} {k : Bool → Prog} (hc : s.cfg.wf = true) (hf : f ∈ s.cfg.fields) (ok : a.ok = true)
    (next : (k (f.getBool (Memory.read regs f.reg.toNat))).Ends s regs (ops ++ [.readOne f.reg]) rest t) :
    (readBool f k).Ends s regs ops (.answer a :: rest) t :=
  readReg_ends hc (Cfg.wf_field_control hc f hf) ok next

/-- A successful `WriteReg` goes on with the byte written (R63, R53 item 3). -/
theorem writeReg_ends {r v : Byte} {k : Prog} (ok : a.ok = true)
    (next : k.Ends s (Memory.write regs r.toNat v) (ops ++ [.writeOne r v]) rest t) :
    (writeReg r v k).Ends s regs ops (.answer a :: rest) t := by
  intro temps
  rw [writeReg_run_ok rfl ok, State.midway_transact, ok, State.regsAfter_writeOne_ok]
  exact next _

/-- A successful `UpdateFields` of a control register (R65). -/
theorem updateFields_ends {r : Byte} {fs : List (Field × Byte)} {k : Prog} (hc : s.cfg.wf = true)
    (hr : r ∈ s.cfg.controlAddrs) (ok1 : a1.ok = true) (ok2 : a2.ok = true)
    (next : k.Ends s (Memory.write regs r.toNat (putFields (Memory.read regs r.toNat) fs))
      (ops ++ [.readOne r] ++ [.writeOne r (putFields (Memory.read regs r.toNat) fs)]) rest t) :
    (updateFields r fs k).Ends s regs ops (.answer a1 :: .answer a2 :: rest) t :=
  readReg_ends hc hr ok1 (writeReg_ends ok2 next)

/-- Either branch of a test. -/
theorem ite_ends_pos {c : Prop} [Decidable c] {p q : Prog} {inputs : List Input} (h : c)
    (hp : p.Ends s regs ops inputs t) : (if c then p else q).Ends s regs ops inputs t := by
  rwa [if_pos h]
theorem ite_ends_neg {c : Prop} [Decidable c] {p q : Prog} {inputs : List Input} (h : ¬c)
    (hq : q.Ends s regs ops inputs t) : (if c then p else q).Ends s regs ops inputs t := by
  rwa [if_neg h]

/-- A command whose operand names a setting, and that has the `READY` it needs, ends as its program does (R89). -/
theorem exec_ends {i : Instr} {α : Type} {o : Option α} {v : α} {needs : Bool} {k : α → Prog} {inputs : List Input}
    (rule : exec i s = launch o needs k s) (named : o = some v) (ready : s.ready = true) (hin : s.inputs = inputs)
    (h : (k v).Ends s s.regs [] inputs t) : exec i s = .next t := by
  have dispatched : (needs && !s.ready) = false := by simp [ready]
  have ran : (k v).run s.fresh = t := by
    rw [State.fresh_eq_midway, hin]
    exact h []
  rw [rule, named, launch, dispatched, ← ran]
  rfl

end

end Sys2Proof.Machine
end

section
/-! The codec commands completed (40_codec_accel.md R130 to R139, 41_codec_gyro.md R161 to R167, 42_codec_common.md R190
to R193): each obligation is the command's program followed over its successful transactions. Where commands have one
rule for several fields, the rule is followed once. -/

namespace Sys2Proof.Machine

/-! ### Boolean fields -/

/-- A setter of a boolean field reads and writes the field's register (R65). -/
theorem boolSetter_completes {s : State} {a1 a2 : Answer} {rest : List Input} {set : Operand → Instr} {f : Field}
    (rule : ∀ a, exec (set a) s = launch (asBool a) true (fun v => writeBool f v (complete 0)) s)
    (hc : s.cfg.wf = true) (hf : f ∈ s.cfg.fields) (ready : s.ready = true)
    (hin : s.inputs = .answer a1 :: .answer a2 :: rest) (ok1 : a1.ok = true) (ok2 : a2.ok = true) (v : Bool) :
    let b := f.put (s.reg f.reg) (if v = f.inv then 0 else 1)
    exec (set (if v then 1 else 0)) s =
      .next (s.done (s.regsWith f.reg b) 0 0 [.readOne f.reg, .writeOne f.reg b] rest) := by
  have named : asBool (if v then 1 else 0) = some v := by cases v <;> rfl
  rw [← Field.ofBool_eq]
  exact exec_ends (rule _) named ready hin
    (updateFields_ends hc (Cfg.wf_field_control hc f hf) ok1 ok2 (complete_ends 0))

/-- Settles O25: the five setters have the one rule. -/
theorem booleanSettersComplete : Obligations.BooleanSettersComplete := by
  unfold Obligations.BooleanSettersComplete
  intro p hp s v a1 a2 rest hc ready hin ok1 ok2
  simp only [List.mem_cons, List.not_mem_nil, or_false] at hp
  rcases hp with rfl | rfl | rfl | rfl | rfl <;>
    exact boolSetter_completes (fun _ => rfl) hc (by simp [Cfg.fields]) ready hin ok1 ok2 v

/-- A getter of a boolean field reads the field's register and reports the boolean its stored bit stands for (R64). -/
theorem boolGetter_completes {s : State} {a1 : Answer} {rest : List Input} {i : Instr} {f : Field}
    (rule : exec i s = launch (asNone 0) true (fun _ => readBool f fun v => complete (boolWord v)) s)
    (hc : s.cfg.wf = true) (hf : f ∈ s.cfg.fields) (one_bit : f.w = 1) (ready : s.ready = true)
    (hin : s.inputs = .answer a1 :: rest) (ok1 : a1.ok = true) :
    exec i s =
      .next (s.done s.regs 0 (if f.get (s.reg f.reg) = (if f.inv then 0 else 1) then 1 else 0) [.readOne f.reg] rest) := by
  obtain ⟨-, fits, -⟩ := Cfg.wf_shape hc f hf
  simp only [← Field.getBool_eq_true_iff fits one_bit]
  exact exec_ends rule rfl ready hin (readBool_ends hc hf ok1 (complete_ends _))

/-- Settles O28: the five getters have the one rule. -/
theorem booleanGettersComplete : Obligations.BooleanGettersComplete := by
  unfold Obligations.BooleanGettersComplete
  intro p hp s a1 rest hc ready hin ok1
  have widths := Cfg.wf_widths hc
  simp only [List.mem_cons, List.not_mem_nil, or_false] at hp
  rcases hp with rfl | rfl | rfl | rfl | rfl <;>
    exact boolGetter_completes rfl hc (by simp [Cfg.fields]) (by simp [widths]) ready hin ok1

/-! ### Sensors on and off -/

/-- The rule both sensors' enable setters have, for the rate field, the off code and the code of the enable rate
(R136, R166). -/
def enableProg (f : Field) (off on : Byte) (v : Bool) : Prog :=
  if v then
    readReg f.reg fun b => if f.get b = off then writeReg f.reg (f.put b on) (complete 0) else complete 0
  else updateFields f.reg [(f, off)] (complete 0)

theorem enableProg_false (f : Field) (off on : Byte) :
    enableProg f off on false = updateFields f.reg [(f, off)] (complete 0) := rfl
theorem enableProg_true (f : Field) (off on : Byte) :
    enableProg f off on true =
      readReg f.reg fun b => if f.get b = off then writeReg f.reg (f.put b on) (complete 0) else complete 0 := rfl

theorem setXlEnProg_eq {c : Cfg} (hc : c.wf = true) :
    setXlEnProg c = enableProg c.fXlOdr c.odrCodeXl.off (c.odrCodeXl.code c.enableOdrXl) := by
  obtain ⟨reg, -⟩ := Cfg.wf_regs hc
  funext v
  rw [enableProg, reg]
  rfl

theorem setGEnProg_eq {c : Cfg} (hc : c.wf = true) :
    setGEnProg c = enableProg c.fGOdr c.odrCodeG.off (c.odrCodeG.code c.enableOdrG) := by
  obtain ⟨-, -, reg, -⟩ := Cfg.wf_regs hc
  funext v
  rw [enableProg, reg]
  rfl

/-- An enable setter completed: off, on from off, and on while on. -/
theorem enableSetter_completes {s : State} {a1 a2 : Answer} {rest : List Input} {set : Operand → Instr} {f : Field}
    {offCode onCode : Byte}
    (rule : ∀ a, exec (set a) s = launch (asBool a) true (enableProg f offCode onCode) s)
    (hc : s.cfg.wf = true) (hf : f ∈ s.cfg.fields) (ready : s.ready = true) (ok1 : a1.ok = true) (ok2 : a2.ok = true) :
    let off := f.put (s.reg f.reg) offCode
    let on := f.put (s.reg f.reg) onCode
    (s.inputs = .answer a1 :: .answer a2 :: rest →
      exec (set 0) s = .next (s.done (s.regsWith f.reg off) 0 0 [.readOne f.reg, .writeOne f.reg off] rest)) ∧
    (s.inputs = .answer a1 :: .answer a2 :: rest → f.get (s.reg f.reg) = offCode →
      exec (set 1) s = .next (s.done (s.regsWith f.reg on) 0 0 [.readOne f.reg, .writeOne f.reg on] rest)) ∧
    (s.inputs = .answer a1 :: rest → f.get (s.reg f.reg) ≠ offCode →
      exec (set 1) s = .next (s.done s.regs 0 0 [.readOne f.reg] rest)) := by
  have control := Cfg.wf_field_control hc f hf
  refine ⟨fun hin => ?off, fun hin is_off => ?on_from_off, fun hin is_on => ?on_while_on⟩
  case off =>
    refine exec_ends (v := false) (rule 0) rfl ready hin ?_
    rw [enableProg_false]
    exact updateFields_ends hc control ok1 ok2 (complete_ends 0)
  case on_from_off =>
    refine exec_ends (v := true) (rule 1) rfl ready hin ?_
    rw [enableProg_true]
    exact readReg_ends hc control ok1 (ite_ends_pos is_off (writeReg_ends ok2 (complete_ends 0)))
  case on_while_on =>
    refine exec_ends (v := true) (rule 1) rfl ready hin ?_
    rw [enableProg_true]
    exact readReg_ends hc control ok1 (ite_ends_neg is_on (complete_ends 0))

/-- Settles O26: both sensors have the one rule. -/
theorem enableSettersComplete : Obligations.EnableSettersComplete := by
  unfold Obligations.EnableSettersComplete
  intro p hp s a1 a2 rest hc ready ok1 ok2
  simp only [List.mem_cons, List.not_mem_nil, or_false] at hp
  rcases hp with rfl | rfl
  · exact enableSetter_completes (fun _ => setXlEnProg_eq hc ▸ rfl) hc s.cfg.fXlOdr_mem ready ok1 ok2
  · exact enableSetter_completes (fun _ => setGEnProg_eq hc ▸ rfl) hc s.cfg.fGOdr_mem ready ok1 ok2

/-- Settles O31: one read, and the code compared with the off code. -/
theorem enabledGettersComplete : Obligations.EnabledGettersComplete := by
  unfold Obligations.EnabledGettersComplete
  intro s a1 rest hc ready hin ok1
  obtain ⟨xlReg, -, gReg, -⟩ := Cfg.wf_regs hc
  have reported (code off : Byte) : boolWord (code != off) = if code = off then 0 else 1 := by
    by_cases h : code = off <;> simp [boolWord, h]
  rw [← reported, ← reported, ← xlReg, ← gReg]
  exact ⟨exec_ends rfl rfl ready hin (readField_ends hc s.cfg.fXlOdr_mem ok1 (complete_ends _)),
    exec_ends rfl rfl ready hin (readField_ends hc s.cfg.fGOdr_mem ok1 (complete_ends _))⟩

/-! ### Rates read back -/

/-- What a rate getter reports: the number of the code's rate, or that the code has none (R133, R163). -/
def reportRate (dHz : Option Nat) : Prog := dHz.elim (raise .errBadCode) fun n => complete (word n)

theorem getXlOdrProg_eq (c : Cfg) :
    getXlOdrProg c = readField c.fXlOdr fun b => reportRate ((c.odrCodeXl.rate b).map XlRate.dHz) := by
  refine congrArg (readField c.fXlOdr) (funext fun b => ?_)
  cases c.odrCodeXl.rate b <;> rfl

theorem getGOdrProg_eq (c : Cfg) :
    getGOdrProg c = readField c.fGOdr fun b => reportRate ((c.odrCodeG.rate b).map GRate.dHz) := by
  refine congrArg (readField c.fGOdr) (funext fun b => ?_)
  cases c.odrCodeG.rate b <;> rfl

theorem exec_getXlOdr (s : State) : exec (.getXlOdr 0) s = launch (asNone 0) true
    (fun _ => readField s.cfg.fXlOdr fun b => reportRate ((s.cfg.odrCodeXl.rate b).map XlRate.dHz)) s := by
  rw [← getXlOdrProg_eq]
  rfl

theorem exec_getGOdr (s : State) : exec (.getGOdr 0) s = launch (asNone 0) true
    (fun _ => readField s.cfg.fGOdr fun b => reportRate ((s.cfg.odrCodeG.rate b).map GRate.dHz)) s := by
  rw [← getGOdrProg_eq]
  rfl

/-- A rate getter completed, on a code with a rate and on one without. -/
theorem rateGetter_completes {s : State} {a1 : Answer} {rest : List Input} {i : Instr} {f : Field}
    {dHz : Byte → Option Nat}
    (rule : exec i s = launch (asNone 0) true (fun _ => readField f fun b => reportRate (dHz b)) s)
    (hc : s.cfg.wf = true) (hf : f ∈ s.cfg.fields) (ready : s.ready = true)
    (hin : s.inputs = .answer a1 :: rest) (ok1 : a1.ok = true) :
    (∀ n, dHz (f.get (s.reg f.reg)) = some n → exec i s = .next (s.done s.regs 0 (word n) [.readOne f.reg] rest)) ∧
    (dHz (f.get (s.reg f.reg)) = none → exec i s = .next (s.done s.regs 6 0 [.readOne f.reg] rest)) := by
  have read {t : State} (next : (reportRate (dHz (f.get (s.reg f.reg)))).Ends s s.regs [.readOne f.reg] rest t) :
      exec i s = .next t := exec_ends rule rfl ready hin (readField_ends hc hf ok1 next)
  refine ⟨fun n coded => read ?_, fun uncoded => read ?_⟩
  · rw [coded]
    exact complete_ends _
  · rw [uncoded]
    exact raise_ends _

/-- Settles O30: both sensors have the one rule, and the code tables are injective. -/
theorem rateGettersComplete : Obligations.RateGettersComplete := by
  unfold Obligations.RateGettersComplete
  intro s a1 rest hc ready hin ok1
  obtain ⟨xlReg, -, gReg, -⟩ := Cfg.wf_regs hc
  obtain ⟨xlRate, xlNone⟩ := rateGetter_completes (exec_getXlOdr s) hc s.cfg.fXlOdr_mem ready hin ok1
  obtain ⟨gRate, gNone⟩ := rateGetter_completes (exec_getGOdr s) hc s.cfg.fGOdr_mem ready hin ok1
  rw [xlReg] at xlRate xlNone
  rw [gReg] at gRate gNone
  refine ⟨fun v coded => xlRate _ ?_, fun uncoded => xlNone ?_, fun v coded => gRate _ ?_, fun uncoded => gNone ?_⟩
  · rw [← coded, XlOdrCodes.rate_code hc]
    rfl
  · rw [XlOdrCodes.rate_eq_none uncoded]
    rfl
  · rw [← coded, GOdrCodes.rate_code hc]
    rfl
  · rw [GOdrCodes.rate_eq_none uncoded]
    rfl

/-! ### Ranges read back -/

/-- The decoding tables of the range codes, in the numbers reported (R98, R100). -/
theorem decXlFs_table {m c : Byte} {g : Word}
    (row : (m, c, g) ∈ [(0, 0, 2), (0, 1, 16), (0, 2, 4), (0, 3, 8), (1, 0, 2), (1, 1, 2), (1, 2, 4), (1, 3, 8)]) :
    word (decXlFs (m == 1) c).g = g := by
  simp only [List.mem_cons, List.not_mem_nil, or_false, Prod.mk.injEq] at row
  obtain ⟨rfl, rfl, rfl⟩ | ⟨rfl, rfl, rfl⟩ | ⟨rfl, rfl, rfl⟩ | ⟨rfl, rfl, rfl⟩ | ⟨rfl, rfl, rfl⟩ | ⟨rfl, rfl, rfl⟩ |
    ⟨rfl, rfl, rfl⟩ | ⟨rfl, rfl, rfl⟩ := row <;> rfl

theorem decGFs_table {flag code : Byte} {d : Word}
    (row : (flag, code, d) ∈ [(0, 0, 250), (0, 1, 500), (0, 2, 1000), (0, 3, 2000), (1, 0, 125), (1, 1, 125),
      (1, 2, 125), (1, 3, 125)]) :
    word (decGFs (flag == 1) code).dps = d := by
  simp only [List.mem_cons, List.not_mem_nil, or_false, Prod.mk.injEq] at row
  obtain ⟨rfl, rfl, rfl⟩ | ⟨rfl, rfl, rfl⟩ | ⟨rfl, rfl, rfl⟩ | ⟨rfl, rfl, rfl⟩ | ⟨rfl, rfl, rfl⟩ | ⟨rfl, rfl, rfl⟩ |
    ⟨rfl, rfl, rfl⟩ | ⟨rfl, rfl, rfl⟩ := row <;> rfl

/-- Settles O29: the reads of each getter, the decoding tables, and the widths of the fields. -/
theorem rangeGettersComplete : Obligations.RangeGettersComplete := by
  unfold Obligations.RangeGettersComplete
  intro s a1 a2 rest hc ready ok1 ok2
  obtain ⟨-, xlReg, -, -, -, -, -, modeReg, -⟩ := Cfg.wf_regs hc
  obtain ⟨xlWidth, gWidth, flagWidth, modeWidth, -⟩ := Cfg.wf_widths hc
  have value_lt (f : Field) (hf : f ∈ s.cfg.fields) (r : Byte) : (f.get (s.reg r)).toNat < 2 ^ f.w :=
    Field.get_lt (Cfg.wf_shape hc f hf).2.1 _
  refine ⟨fun hin g row => ?xl, fun hin d row => ?gyro, ?_, ?_, ?_, ?_⟩
  case xl =>
    rw [← decXlFs_table row, ← xlReg, ← modeReg]
    exact exec_ends rfl rfl ready hin
      (readField_ends hc s.cfg.fXlFs_mem ok1 (readField_ends hc s.cfg.fXlFsmode_mem ok2 (complete_ends _)))
  case gyro =>
    rw [← decGFs_table row]
    exact exec_ends rfl rfl ready hin (readReg_ends hc s.cfg.regCtrlG_control ok1 (complete_ends _))
  · simpa [modeWidth] using value_lt _ s.cfg.fXlFsmode_mem s.cfg.regFsm
  · simpa [xlWidth] using value_lt _ s.cfg.fXlFs_mem s.cfg.regCtrlXl
  · simpa [flagWidth] using value_lt _ s.cfg.fGFs125_mem s.cfg.regCtrlG
  · simpa [gWidth] using value_lt _ s.cfg.fGFs_mem s.cfg.regCtrlG

/-! ### The accelerometer's range and rate -/

/-- A range other than 16 g is written at once, and 16 g by the mode read first (R130). -/
theorem setXlRangeProg_of_ne (c : Cfg) {v : XlRange} (h : v ≠ .g16) :
    setXlRangeProg c v = updateFields c.regCtrlXl [(c.fXlFs, encXlFs v)] (complete 0) := if_neg h
theorem setXlRangeProg_g16 (c : Cfg) :
    setXlRangeProg c .g16 = readField c.fXlFsmode fun m =>
      updateFields c.regCtrlXl [(c.fXlFs, encXlFs (rangePolicy m .g16))] (complete 0) := rfl

/-- A rate other than 1.6 Hz is written at once, and 1.6 Hz by the high-performance mode read first (R132). -/
theorem setXlOdrProg_of_ne (c : Cfg) {v : XlRate} (h : v ≠ .hz1_6) :
    setXlOdrProg c v = updateFields c.regCtrlXl [(c.fXlOdr, c.odrCodeXl.code v)] (complete 0) := if_neg h
theorem setXlOdrProg_hz1_6 (c : Cfg) :
    setXlOdrProg c .hz1_6 = readBool c.fXlHp fun hp =>
      updateFields c.regCtrlXl [(c.fXlOdr, c.odrCodeXl.code (ratePolicy hp .hz1_6))] (complete 0) := rfl

/-- Settles O23: the code of the range is written at once, and for 16 g after the mode has been read. -/
theorem setXlRangeCompletes : Obligations.SetXlRangeCompletes := by
  unfold Obligations.SetXlRangeCompletes
  intro s arg a0 a1 a2 rest hc ready ok0 ok1 ok2
  refine ⟨fun code row hin => ?at_once, fun arg_eq hin => ?by_mode⟩
  case at_once =>
    obtain ⟨v, named, not_g16, rfl⟩ : ∃ v : XlRange, v.g = arg.toNat ∧ v ≠ .g16 ∧ encXlFs v = code := by
      simp only [List.mem_cons, List.not_mem_nil, or_false, Prod.mk.injEq] at row
      rcases row with ⟨h, rfl⟩ | ⟨h, rfl⟩ | ⟨h, rfl⟩
      · exact ⟨.g2, h.symm, nofun, rfl⟩
      · exact ⟨.g4, h.symm, nofun, rfl⟩
      · exact ⟨.g8, h.symm, nofun, rfl⟩
    refine exec_ends rfl ((asXlRange_eq_some arg v).2 named) ready hin ?_
    rw [setXlRangeProg_of_ne _ not_g16]
    exact updateFields_ends hc s.cfg.regCtrlXl_control ok1 ok2 (complete_ends 0)
  case by_mode =>
    obtain ⟨-, -, -, -, -, -, -, modeReg, -⟩ := Cfg.wf_regs hc
    obtain ⟨-, -, -, policy, -⟩ := xlRangeCodes
    have code (m : Byte) : (if m = 1 then 3 else 1) = encXlFs (rangePolicy m .g16) := by
      rw [policy]
      split <;> rfl
    rw [code, ← modeReg]
    refine exec_ends rfl ((asXlRange_eq_some arg .g16).2 arg_eq.symm) ready hin ?_
    rw [setXlRangeProg_g16]
    exact readField_ends hc s.cfg.fXlFsmode_mem ok0
      (updateFields_ends hc s.cfg.regCtrlXl_control ok1 ok2 (complete_ends 0))

/-- Settles O24: the code of the rate is written at once, and for 1.6 Hz after the high-performance mode has been read. -/
theorem setXlOdrCompletes : Obligations.SetXlOdrCompletes := by
  unfold Obligations.SetXlOdrCompletes
  intro s arg v a0 a1 a2 rest hc ready ok0 ok1 ok2 arg_eq
  have named := (asXlRate_eq_some arg v).2 arg_eq.symm
  refine ⟨fun not_hz1_6 hin => ?at_once, fun is_hz1_6 hin => ?by_mode⟩
  case at_once =>
    refine exec_ends rfl named ready hin ?_
    rw [setXlOdrProg_of_ne _ not_hz1_6]
    exact updateFields_ends hc s.cfg.regCtrlXl_control ok1 ok2 (complete_ends 0)
  case by_mode =>
    subst is_hz1_6
    obtain ⟨-, fits, -⟩ := Cfg.wf_shape hc _ s.cfg.fXlHp_mem
    obtain ⟨-, -, -, -, -, -, one_bit, -⟩ := Cfg.wf_widths hc
    obtain ⟨-, -, -, -, -, -, -, -, hpReg, -⟩ := Cfg.wf_regs hc
    have policy (b : Byte) : (if s.cfg.fXlHp.get b = (if s.cfg.fXlHp.inv then 0 else 1) then XlRate.hz1_6 else .hz12_5) =
        ratePolicy (s.cfg.fXlHp.getBool b) .hz1_6 := by
      rw [← if_congr (Field.getBool_eq_true_iff fits one_bit b) rfl rfl]
      cases s.cfg.fXlHp.getBool b <;> rfl
    rw [policy, ← hpReg]
    refine exec_ends rfl named ready hin ?_
    rw [setXlOdrProg_hz1_6]
    exact readBool_ends hc s.cfg.fXlHp_mem ok0
      (updateFields_ends hc s.cfg.regCtrlXl_control ok1 ok2 (complete_ends 0))

end Sys2Proof.Machine
end

section
/-! What a command can leave of the device's registers, however it goes (20_memory.md R65, 60_exceptions.md R272): a
condition on the registers wherever its program waits, and on registers, status and data wherever it completes. -/

namespace Sys2Proof.Machine

/-! ### Following a program over the device's registers -/

/-- A program started on the registers `regs` leaves registers that meet `W` where it waits, and registers, a status and a
data word that meet `R` where it completes. -/
def Prog.Leaves (c : Cfg) (W : List Host.Cell → Prop) (R : List Host.Cell → Status → Word → Prop)
    (regs : List Host.Cell) (p : Prog) : Prop :=
  ∀ s : State, s.cfg = c → s.regs = regs →
    ((p.run s).busy = s.busy ∧ W (p.run s).regs) ∨
    ∃ st, (p.run s).busy = false ∧ (p.run s).res = Status.code st ∧ R (p.run s).regs st (p.run s).data

section
variable {c : Cfg} {W : List Host.Cell → Prop} {R : List Host.Cell → Status → Word → Prop} {regs : List Host.Cell}

theorem finish_leaves {st : Status} {d : Word} (h : R regs st d) : (Prog.finish st d).Leaves c W R regs :=
  fun _ _ hr => .inr ⟨st, rfl, rfl, hr ▸ h⟩

theorem setReady_leaves {b : Bool} {p : Prog} (h : p.Leaves c W R regs) : (Prog.setReady b p).Leaves c W R regs :=
  fun s => h (s.setReady b)

/-- Either branch of a test. -/
theorem ite_leaves {P : Prop} [Decidable P] {p q : Prog} (hp : p.Leaves c W R regs) (hq : q.Leaves c W R regs) :
    (if P then p else q).Leaves c W R regs := by
  split
  · exact hp
  · exact hq

/-- A command past dispatch (R82). -/
theorem onOperand_leaves {α : Type} {o : Option α} {k : α → Prog} (invalid : R regs .errInvalid 0)
    (rule : ∀ v, o = some v → (k v).Leaves c W R regs) : (onOperand o k).Leaves c W R regs := by
  cases o with
  | none => exact finish_leaves invalid
  | some v => exact rule v rfl

/-- `ReadReg` leaves the registers alone, and goes on with what the register reads as (R63). -/
theorem readReg_leaves_devByte {r : Byte} {k : Byte → Prog} (wait : W regs) (transport : R regs .errTransport 0)
    (next : ∀ s d, s.cfg = c → s.regs = regs → (k (State.devByte s r d)).Leaves c W R regs) :
    (readReg r k).Leaves c W R regs := by
  intro s hc hr
  rcases readReg_run r k s with ⟨-, ran⟩ | ⟨a, -, -, -, ran⟩ | ⟨a, -, -, -, ran⟩
  · rw [ran]
    exact .inl ⟨rfl, hr ▸ wait⟩
  · rw [ran]
    exact .inr ⟨_, rfl, rfl, hr ▸ transport⟩
  · rw [ran]
    exact next s a.b0 hc hr (s.transact (.readOne r) a) hc hr

theorem readReg_leaves {r : Byte} {k : Byte → Prog} (wait : W regs) (transport : R regs .errTransport 0)
    (next : ∀ b, (k b).Leaves c W R regs) : (readReg r k).Leaves c W R regs :=
  readReg_leaves_devByte wait transport fun _ _ _ _ => next _

/-- A control register reads as the byte it holds (R53 item 2). -/
theorem readControl_leaves {r : Byte} {k : Byte → Prog} (hc : c.wf = true) (hr : r ∈ c.controlAddrs) (wait : W regs)
    (transport : R regs .errTransport 0) (next : (k (Memory.read regs r.toNat)).Leaves c W R regs) :
    (readReg r k).Leaves c W R regs := by
  refine readReg_leaves_devByte wait transport fun s d cfg same => ?_
  subst cfg same
  rw [State.devByte_control hc hr]
  exact next

/-- `WriteReg` leaves the registers as they were or with the byte written, and goes on with the latter (R63, R53 item 3). -/
theorem writeReg_leaves {r v : Byte} {k : Prog} (wait : W regs) (lost : R regs .errTransport 0)
    (landed : R (Memory.write regs r.toNat v) .errTransport 0)
    (next : k.Leaves c W R (Memory.write regs r.toNat v)) : (writeReg r v k).Leaves c W R regs := by
  intro s hc hr
  subst hr
  rcases writeReg_run r v k s with ⟨-, ran⟩ | ⟨a, -, -, failed, ran⟩ | ⟨a, -, -, ok, ran⟩
  · rw [ran]
    exact .inl ⟨rfl, wait⟩
  · rw [ran]
    refine .inr ⟨.errTransport, rfl, rfl, ?_⟩
    rw [State.finish_regs, State.transact_regs, failed]
    cases a.landed
    · exact lost
    · exact landed
  · rw [ran]
    refine next (s.transact (.writeOne r v) a) hc ?_
    rw [State.transact_regs, ok, State.regsAfter_writeOne_ok]

/-- `UpdateFields` of a control register (R65). -/
theorem updateFields_leaves {r : Byte} {fs : List (Field × Byte)} {k : Prog} (hc : c.wf = true)
    (hr : r ∈ c.controlAddrs) (wait : W regs) (lost : R regs .errTransport 0)
    (landed : R (Memory.write regs r.toNat (putFields (Memory.read regs r.toNat) fs)) .errTransport 0)
    (next : k.Leaves c W R (Memory.write regs r.toNat (putFields (Memory.read regs r.toNat) fs))) :
    (updateFields r fs k).Leaves c W R regs :=
  readControl_leaves hc hr wait lost (writeReg_leaves wait lost landed next)

/-- `RawStage` leaves the registers alone, and goes on with some sample (R232). -/
theorem rawStage_leaves {base : Byte} {ax : Axis} {k : Sample → Prog} (wait : W regs) (transport : R regs .errTransport 0)
    (next : ∀ x, (k x).Leaves c W R regs) : (rawStage base ax k).Leaves c W R regs := by
  intro s hc hr
  rcases rawStage_run base ax k s with ⟨-, ran⟩ | ⟨a, -, -, -, ran⟩ | ⟨a, -, -, -, -, -, ran⟩ | ⟨a, -, -, -, -, ran⟩
  · rw [ran]
    exact .inl ⟨rfl, hr ▸ wait⟩
  · rw [ran]
    exact .inr ⟨_, rfl, rfl, hr ▸ transport⟩
  · rw [ran]
    exact next _ ((s.transact _ a).bump .allOnes) hc hr
  · rw [ran]
    exact next _ (s.transact _ a) hc hr

end

/-! ### The one register a command updates -/

/-- Of the registers of `s` at most one is changed, by a put of some of the fields `own`, all in that register. -/
def State.UpdatedBy (s : State) (own : List Field) (regs : List Host.Cell) : Prop :=
  regs = s.regs ∨
  ∃ r fs, (∀ fv ∈ fs, fv.1 ∈ own ∧ fv.1.reg = r) ∧ regs = s.regsWith r (putFields (s.reg r) fs)

/-- A program started on the registers `regs` leaves those of `s` updated by a put of `own` fields, on every outcome. -/
def Prog.Updates (s : State) (own : List Field) (regs : List Host.Cell) (p : Prog) : Prop :=
  p.Leaves s.cfg (s.UpdatedBy own) (fun regs _ _ => s.UpdatedBy own regs) regs

section
variable {s : State} {own : List Field} {f : Field} {fs : List (Field × Byte)} {k : Byte → Prog} {r : Byte}

theorem State.UpdatedBy.refl : s.UpdatedBy own s.regs := .inl rfl
theorem State.UpdatedBy.put (h : ∀ fv ∈ fs, fv.1 ∈ own ∧ fv.1.reg = r) :
    s.UpdatedBy own (s.regsWith r (putFields (s.reg r) fs)) := .inr ⟨r, fs, h, rfl⟩

/-- A completion updates nothing more. -/
theorem finish_updates {regs : List Host.Cell} {st : Status} {d : Word} (h : s.UpdatedBy own regs) :
    (Prog.finish st d).Updates s own regs := finish_leaves h

/-- A read updates nothing. -/
theorem readReg_updates (next : ∀ b, (k b).Updates s own s.regs) : (readReg r k).Updates s own s.regs :=
  readReg_leaves .refl .refl next

theorem readField_updates (next : ∀ b, (k b).Updates s own s.regs) : (readField f k).Updates s own s.regs :=
  readReg_updates fun _ => next _
theorem readBool_updates {k : Bool → Prog} (next : ∀ b, (k b).Updates s own s.regs) :
    (readBool f k).Updates s own s.regs :=
  readReg_updates fun _ => next _
theorem rawStage_updates {base : Byte} {ax : Axis} {k : Sample → Prog} (next : ∀ x, (k x).Updates s own s.regs) :
    (rawStage base ax k).Updates s own s.regs :=
  rawStage_leaves .refl .refl next

/-- A rate reported updates nothing. -/
theorem reportRate_updates {dHz : Option Nat} : (reportRate dHz).Updates s own s.regs := by
  cases dHz <;> exact finish_updates .refl

/-- An update of own fields, the last thing a command does to the device. -/
theorem updateFields_updates {p : Prog} (hc : s.cfg.wf = true) (hr : r ∈ s.cfg.controlAddrs)
    (h : ∀ fv ∈ fs, fv.1 ∈ own ∧ fv.1.reg = r) (next : ∀ regs, s.UpdatedBy own regs → p.Updates s own regs) :
    (updateFields r fs p).Updates s own s.regs :=
  updateFields_leaves hc hr .refl .refl (.put h) (next _ (.put h))

/-- An update of one own field. -/
theorem updateField_updates {v : Byte} (hc : s.cfg.wf = true) (hf : f ∈ s.cfg.fields) (h : f ∈ own) (reg : f.reg = r) :
    (updateFields r [(f, v)] (complete 0)).Updates s own s.regs :=
  updateFields_updates hc (reg ▸ Cfg.wf_field_control hc f hf) (by simpa using ⟨h, reg⟩) fun _ => finish_updates

/-- The enable setters update the rate field or nothing. -/
theorem enableProg_updates {off on : Byte} {v : Bool} (hc : s.cfg.wf = true) (hf : f ∈ s.cfg.fields) (h : f ∈ own) :
    (enableProg f off on v).Updates s own s.regs := by
  cases v with
  | false => exact updateField_updates hc hf h rfl
  | true =>
    have put : s.UpdatedBy own (s.regsWith f.reg (f.put (s.reg f.reg) on)) :=
      .put (fs := [(f, on)]) (by simpa using h)
    rw [enableProg_true]
    exact readControl_leaves hc (Cfg.wf_field_control hc f hf) .refl .refl
      (ite_leaves (writeReg_leaves .refl .refl put (finish_leaves put)) (finish_leaves .refl))

end

/-- The program of every command updates at most its own fields, on every outcome. -/
theorem progOf_updates (i : Instr) {s : State} (hc : s.cfg.wf = true) :
    (progOf i s).Updates s (ownFields s.cfg i) s.regs := by
  have done {st : Status} {d : Word} {own : List Field} : (Prog.finish st d).Updates s own s.regs :=
    finish_updates .refl
  have operand {α : Type} {o : Option α} {k : α → Prog} {own : List Field} (rule : ∀ v, (k v).Updates s own s.regs) :
      (onOperand o k).Updates s own s.regs := onOperand_leaves .refl fun v _ => rule v
  have xl {f : Field} {v : Byte} (hf : f ∈ s.cfg.fields) (reg : f.reg = s.cfg.regCtrlXl) :
      (updateFields s.cfg.regCtrlXl [(f, v)] (complete 0)).Updates s [f] s.regs :=
    updateField_updates hc hf (List.mem_singleton_self f) reg
  have regs := Cfg.wf_regs hc
  have ⟨odr_reg, fs_reg, _⟩ := regs
  cases i with
  | init a =>
    refine operand fun _ => setReady_leaves (readReg_updates fun id => ite_leaves ?_ done)
    exact updateFields_updates hc (by simp [Cfg.controlAddrs]) (by simp [ownFields, regs])
      fun _ h => setReady_leaves (finish_updates h)
  | setXlRange a =>
    exact operand fun v => ite_leaves (readField_updates fun _ => xl s.cfg.fXlFs_mem fs_reg) (xl s.cfg.fXlFs_mem fs_reg)
  | setXlOdr a =>
    exact operand fun v => ite_leaves (readBool_updates fun _ => xl s.cfg.fXlOdr_mem odr_reg) (xl s.cfg.fXlOdr_mem odr_reg)
  | setXlEn a =>
    rw [progOf, setXlEnProg_eq hc]
    exact operand fun _ => enableProg_updates hc s.cfg.fXlOdr_mem (by simp [ownFields])
  | setGEn a =>
    rw [progOf, setGEnProg_eq hc]
    exact operand fun _ => enableProg_updates hc s.cfg.fGOdr_mem (by simp [ownFields])
  | setGRange a | setGOdr a =>
    exact operand fun _ => updateFields_updates hc s.cfg.regCtrlG_control (by simp [ownFields, regs])
      fun _ => finish_updates
  | setXlHp a | setXlFsmode a | setGHp a | setBdu a | setEmb a =>
    exact operand fun _ => updateField_updates hc (by simp [Cfg.fields]) (by simp [ownFields]) rfl
  | getXlOdr a =>
    rw [progOf, getXlOdrProg_eq]
    exact operand fun _ => readField_updates fun _ => reportRate_updates
  | getGOdr a =>
    rw [progOf, getGOdrProg_eq]
    exact operand fun _ => readField_updates fun _ => reportRate_updates
  | getXlHp a | getXlFsmode a | getGHp a | getBdu a | getEmb a =>
    exact operand fun _ => readBool_updates fun _ => done
  | getXlEn a | getGEn a => exact operand fun _ => readField_updates fun _ => done
  | getGRange a | getDrdy a => exact operand fun _ => readReg_updates fun _ => done
  | getXlRange a => exact operand fun _ => readField_updates fun _ => readField_updates fun _ => done
  | readXl a =>
    exact operand fun _ => rawStage_updates fun _ => readField_updates fun _ => readField_updates fun _ => done
  | readG a => exact operand fun _ => rawStage_updates fun _ => readReg_updates fun _ => done
  | readRawXl a | readRawG a => exact operand fun _ => rawStage_updates fun _ => done
  | getAllones a | getOtherfail a => exact operand fun _ => done

/-- However a command goes, it updates at most its own fields. -/
theorem exec_updates {i : Instr} {s t : State} (hc : s.cfg.wf = true) (h : exec i s = .next t) :
    s.UpdatedBy (ownFields s.cfg i) t.regs := by
  rcases exec_cases h with ⟨-, rfl⟩ | ⟨-, -, -, rfl⟩ | ⟨-, -, rfl⟩
  · exact .refl
  · exact .refl
  · rcases progOf_updates i hc s.fresh rfl rfl with ⟨-, updated⟩ | ⟨-, -, -, updated⟩
    · exact updated
    · exact updated

/-! ### Bits outside a command's own fields -/

/-- The fields a command writes are among those of the configuration. -/
theorem ownFields_subset (c : Cfg) (i : Instr) : ownFields c i ⊆ c.fields := by
  cases i <;> simp [ownFields, Cfg.fields]

/-- A put of several fields keeps the bits outside all their masks. -/
theorem putFields_getLsbD_outside {fs : List (Field × Byte)} {k : Nat}
    (outside : ∀ fv ∈ fs, fv.1.lsb + fv.1.w ≤ 8 ∧ fv.1.mask.getLsbD k = false) (b : Byte) :
    (putFields b fs).getLsbD k = b.getLsbD k := by
  induction fs generalizing b with
  | nil => rfl
  | cons fv fs ih =>
    obtain ⟨⟨fits, off⟩, outside⟩ := List.forall_mem_cons.1 outside
    have first : (fv.1.put b fv.2).getLsbD k = b.getLsbD k := by
      rw [Field.put_getLsbD fits, off]
      rfl
    exact (ih outside _).trans first

/-- An update keeps every bit outside the masks of the fields updated. -/
theorem State.UpdatedBy.bit_kept {s : State} {own : List Field} {regs : List Host.Cell} (h : s.UpdatedBy own regs)
    (hc : s.cfg.wf = true) (canonical : Memory.wf s.regs) (subset : own ⊆ s.cfg.fields) {a : Byte} {k : Nat}
    (outside : ∀ f ∈ own, f.reg = a → f.mask.getLsbD k = false) :
    (Memory.read regs a.toNat).getLsbD k = (s.reg a).getLsbD k := by
  rcases h with rfl | ⟨r, fs, owned, rfl⟩
  · rfl
  · by_cases same : a = r
    · subst same
      rw [State.regsWith, Memory.read_write_same _ _ _ canonical]
      refine putFields_getLsbD_outside (fun fv hfv => ?_) _
      obtain ⟨mem, reg⟩ := owned fv hfv
      obtain ⟨-, fits, -⟩ := Cfg.wf_shape hc _ (subset mem)
      exact ⟨fits, outside _ mem reg⟩
    · rw [State.regsWith, Memory.read_write_other _ _ _ _ fun e => same (BitVec.eq_of_toNat_eq e)]
      rfl

/-- Settles O41: the bits by what a command updates, the fields by their bits. -/
theorem settersPreserveForeignBits : Obligations.SettersPreserveForeignBits := by
  unfold Obligations.SettersPreserveForeignBits
  intro i s t hc canonical h
  have subset := ownFields_subset s.cfg i
  have bit_kept (a : Byte) (k : Nat) (outside : ∀ f ∈ ownFields s.cfg i, f.reg = a → f.mask.getLsbD k = false) :
      (t.reg a).getLsbD k = (s.reg a).getLsbD k :=
    (exec_updates hc h).bit_kept hc canonical subset outside
  refine ⟨bit_kept, fun g hg foreign => ?_⟩
  obtain ⟨-, fits, -⟩ := Cfg.wf_shape hc g hg
  refine Field.get_congr fits fun k hk => bit_kept g.reg k fun f own same => ?_
  exact Cfg.mask_disjoint hc (subset own) hg (fun e => foreign (e ▸ own)) same hk

end Sys2Proof.Machine
end

section
/-! The accelerometer's settings read back (40_codec_accel.md R140): what a setter that completes with `OK` has written,
what a getter that completes with `OK` reports, and that the getter decodes what the setter encoded. -/

namespace Sys2Proof.Machine

/-- A program that, where it completes with `OK`, leaves registers and a data word that meet `Q`; its other outcomes are not
followed. -/
def Prog.OnOk (c : Cfg) (Q : List Host.Cell → Word → Prop) (regs : List Host.Cell) (p : Prog) : Prop :=
  p.Leaves c (fun _ => True) (fun regs st d => st = .ok → Q regs d) regs

section
variable {c : Cfg} {regs : List Host.Cell} {Q : List Host.Cell → Word → Prop}

theorem complete_onOk {d : Word} (h : Q regs d) : (complete d).OnOk c Q regs := finish_leaves fun _ => h

/-- A field read in a program of which only the completion with `OK` matters. -/
theorem readField_onOk {f : Field} {k : Byte → Prog} (hc : c.wf = true) (hf : f ∈ c.fields)
    (next : (k (f.get (Memory.read regs f.reg.toNat))).OnOk c Q regs) : (readField f k).OnOk c Q regs :=
  readControl_leaves hc (Cfg.wf_field_control hc f hf) trivial nofun next

theorem readBool_onOk {f : Field} {k : Bool → Prog} (hc : c.wf = true) (hf : f ∈ c.fields)
    (next : (k (f.getBool (Memory.read regs f.reg.toNat))).OnOk c Q regs) : (readBool f k).OnOk c Q regs :=
  readControl_leaves hc (Cfg.wf_field_control hc f hf) trivial nofun next

/-- An update with nothing after it. -/
theorem updateFields_onOk {r : Byte} {fs : List (Field × Byte)} (hc : c.wf = true) (hr : r ∈ c.controlAddrs)
    (h : Q (Memory.write regs r.toNat (putFields (Memory.read regs r.toNat) fs)) 0) :
    (updateFields r fs (complete 0)).OnOk c Q regs :=
  updateFields_leaves hc hr trivial nofun nofun (complete_onOk h)

theorem onOperand_onOk {α : Type} {o : Option α} {k : α → Prog} (rule : ∀ v, o = some v → (k v).OnOk c Q regs) :
    (onOperand o k).OnOk c Q regs := onOperand_leaves nofun rule

end

/-- A command that has completed with `OK` passed dispatch, and left what its program leaves at such a completion. -/
theorem exec_onOk {i : Instr} {s t : State} {Q : List Host.Cell → Word → Prop} (busy : s.busy = true)
    (idle : t.busy = false) (ok : t.res = 0) (h : exec i s = .next t) (rule : (progOf i s).OnOk s.cfg Q s.regs) :
    Q t.regs t.data := by
  rcases exec_cases h with ⟨-, rfl⟩ | ⟨-, -, -, rfl⟩ | ⟨-, -, rfl⟩
  · cases ok
  · cases ok
  · rcases rule s.fresh rfl rfl with ⟨still_busy, -⟩ | ⟨st, -, res, left⟩
    · rw [still_busy, State.fresh_busy, busy] at idle
      cases idle
    · exact left (Status.code_inj.1 (res.symm.trans ok))

/-! ### The range -/

/-- The range `SET_XL_RANGE` writes for `v`, by the mode stored (R130). -/
def State.rangeFor (s : State) (v : XlRange) : XlRange := rangePolicy (s.cfg.fXlFsmode.get (s.reg s.cfg.regFsm)) v

/-- Registers of `s` with the code of the range for the operand in place (R130). -/
def State.RangeSet (s : State) (arg : Operand) (regs : List Host.Cell) : Prop :=
  ∃ v : XlRange, v.g = arg.toNat ∧
    regs = s.regsWith s.cfg.regCtrlXl (s.cfg.fXlFs.put (s.reg s.cfg.regCtrlXl) (encXlFs (s.rangeFor v)))

/-- `SET_XL_RANGE` on `OK` (R130). -/
theorem setXlRange_onOk {s : State} {arg : Operand} (hc : s.cfg.wf = true) :
    (progOf (.setXlRange arg) s).OnOk s.cfg (fun regs _ => s.RangeSet arg regs) s.regs := by
  obtain ⟨-, -, -, -, -, -, -, modeReg, -⟩ := Cfg.wf_regs hc
  obtain ⟨-, -, -, -, policy⟩ := xlRangeCodes
  refine onOperand_onOk fun v named => ?_
  have operand := (asXlRange_eq_some arg v).1 named
  by_cases is_g16 : v = .g16
  · subst is_g16
    rw [setXlRangeProg_g16]
    refine readField_onOk hc s.cfg.fXlFsmode_mem (updateFields_onOk hc s.cfg.regCtrlXl_control ⟨.g16, operand, ?_⟩)
    rw [State.rangeFor, ← modeReg]
    rfl
  · rw [setXlRangeProg_of_ne _ is_g16]
    refine updateFields_onOk hc s.cfg.regCtrlXl_control ⟨v, operand, ?_⟩
    rw [State.rangeFor, policy _ v is_g16]
    rfl

/-- `GET_XL_RANGE` on `OK` (R131). -/
theorem getXlRange_onOk {s : State} (hc : s.cfg.wf = true) :
    (progOf (.getXlRange 0) s).OnOk s.cfg (fun _ d => d = word (decXlFs (s.cfg.fXlFsmode.get (s.reg s.cfg.regFsm) == 1)
      (s.cfg.fXlFs.get (s.reg s.cfg.regCtrlXl))).g) s.regs := by
  obtain ⟨-, xlReg, -, -, -, -, -, modeReg, -⟩ := Cfg.wf_regs hc
  rw [← xlReg, ← modeReg, progOf, getXlRangeProg]
  exact onOperand_onOk fun _ _ => readField_onOk hc s.cfg.fXlFs_mem (readField_onOk hc s.cfg.fXlFsmode_mem
    (complete_onOk rfl))

/-- The code written for a range is decoded to it in the mode it was written for (R98, R130). -/
theorem decXlFs_encXlFs_rangePolicy (m : Byte) (v : XlRange) :
    decXlFs (m == 1) (encXlFs (rangePolicy m v)) = rangePolicy m v := by
  by_cases downgraded : v = .g16 ∧ m = 1
  · obtain ⟨rfl, rfl⟩ := downgraded
    rfl
  · rw [rangePolicy, if_neg downgraded]
    cases v with
    | g16 =>
      rw [beq_false_of_ne fun is_one => downgraded ⟨rfl, is_one⟩]
      rfl
    | g2 | g4 | g8 => cases m == 1 <;> rfl

theorem encXlFs_lt (v : XlRange) : (encXlFs v).toNat < 2 ^ 2 := by cases v <;> decide
theorem XlRange.word_g (v : XlRange) : (word v.g).toNat = v.g := by cases v <;> rfl

/-- The number of the range written for `v`: only 16 g in the extended mode is not `v` itself (R130). -/
theorem rangePolicy_g (m : Byte) (v : XlRange) : (rangePolicy m v).g = if v.g = 16 ∧ m = 1 then 8 else v.g := by
  have is_g16 : v = .g16 ↔ v.g = 16 := by cases v <;> decide
  rw [rangePolicy, apply_ite XlRange.g, if_congr (and_congr_left' is_g16) rfl rfl]
  rfl

/-! ### The rate -/

/-- The rate `SET_XL_ODR` writes for `v`, by the high-performance mode stored (R132). -/
def State.rateFor (s : State) (v : XlRate) : XlRate := ratePolicy (s.cfg.fXlHp.getBool (s.reg s.cfg.regHpXl)) v

/-- Registers of `s` with the code of the rate for the operand in place (R132). -/
def State.RateSet (s : State) (arg : Operand) (regs : List Host.Cell) : Prop :=
  ∃ v : XlRate, v.dHz = arg.toNat ∧
    regs = s.regsWith s.cfg.regCtrlXl (s.cfg.fXlOdr.put (s.reg s.cfg.regCtrlXl) (s.cfg.odrCodeXl.code (s.rateFor v)))

/-- `SET_XL_ODR` on `OK` (R132). -/
theorem setXlOdr_onOk {s : State} {arg : Operand} (hc : s.cfg.wf = true) :
    (progOf (.setXlOdr arg) s).OnOk s.cfg (fun regs _ => s.RateSet arg regs) s.regs := by
  obtain ⟨-, -, -, -, -, -, -, -, hpReg, -⟩ := Cfg.wf_regs hc
  refine onOperand_onOk fun v named => ?_
  have operand := (asXlRate_eq_some arg v).1 named
  by_cases is_hz1_6 : v = .hz1_6
  · subst is_hz1_6
    rw [setXlOdrProg_hz1_6]
    refine readBool_onOk hc s.cfg.fXlHp_mem (updateFields_onOk hc s.cfg.regCtrlXl_control ⟨.hz1_6, operand, ?_⟩)
    rw [State.rateFor, ← hpReg]
    rfl
  · rw [setXlOdrProg_of_ne _ is_hz1_6]
    refine updateFields_onOk hc s.cfg.regCtrlXl_control ⟨v, operand, ?_⟩
    rw [State.rateFor, ratePolicy, if_neg fun h => is_hz1_6 h.1]
    rfl

/-- `GET_XL_ODR` on `OK` (R133). -/
theorem getXlOdr_onOk {s : State} (hc : s.cfg.wf = true) {v : XlRate}
    (coded : s.cfg.fXlOdr.get (s.reg s.cfg.regCtrlXl) = s.cfg.odrCodeXl.code v) :
    (progOf (.getXlOdr 0) s).OnOk s.cfg (fun _ d => d = word v.dHz) s.regs := by
  obtain ⟨xlReg, -⟩ := Cfg.wf_regs hc
  rw [← xlReg] at coded
  rw [progOf, getXlOdrProg_eq]
  refine onOperand_onOk fun _ _ => readField_onOk hc s.cfg.fXlOdr_mem ?_
  change (reportRate ((s.cfg.odrCodeXl.rate (s.cfg.fXlOdr.get (s.reg s.cfg.fXlOdr.reg))).map _)).OnOk _ _ _
  rw [coded, XlOdrCodes.rate_code hc]
  exact complete_onOk rfl

theorem XlRate.word_dHz (v : XlRate) : (word v.dHz).toNat = v.dHz := by cases v <;> rfl

/-- The number of the rate written for `v`: only 1.6 Hz with the high-performance mode disabled is not `v` itself (R132). -/
theorem ratePolicy_dHz (hp : Bool) (v : XlRate) :
    (ratePolicy hp v).dHz = if v.dHz = 16 ∧ hp = false then 125 else v.dHz := by
  cases hp <;> cases v <;> simp [ratePolicy, XlRate.dHz]

/-! ### Setter, then getter -/

/-- After a write of one register that register holds the byte written, and every other one what it held. -/
theorem State.reg_of_regsWith {s t : State} (canonical : Memory.wf s.regs) {r v : Byte} (h : t.regs = s.regsWith r v) :
    t.reg r = v ∧ ∀ r', r' ≠ r → t.reg r' = s.reg r' := by
  simp only [reg, h]
  exact ⟨Memory.read_write_same _ _ _ canonical, fun r' ne =>
    Memory.read_write_other _ _ _ _ fun e => ne (BitVec.eq_of_toNat_eq e)⟩

/-- Settles O43: the getter decodes the code the setter wrote, from a register and a mode that nothing has changed since. -/
theorem accelRoundTrip : Obligations.AccelRoundTrip := by
  unfold Obligations.AccelRoundTrip
  intro s t u arg hc canonical busy t_idle t_ok u_idle u_ok
  refine ⟨fun hset hget => ?range, fun hset hget => ?rate⟩
  case range =>
    obtain ⟨-, -, cfg⟩ := exec_keeps hset
    obtain ⟨-, -, -, -, -, -, -, -, -, -, -, mode_apart⟩ := Cfg.wf_regs hc
    obtain ⟨-, fits, -⟩ := Cfg.wf_shape hc _ s.cfg.fXlFs_mem
    obtain ⟨width, -⟩ := Cfg.wf_widths hc
    obtain ⟨v, operand, written⟩ := exec_onOk busy t_idle t_ok hset (setXlRange_onOk hc)
    obtain ⟨byte, others⟩ := State.reg_of_regsWith canonical written
    have mode : t.cfg.fXlFsmode.get (t.reg t.cfg.regFsm) = s.cfg.fXlFsmode.get (s.reg s.cfg.regFsm) := by
      rw [cfg, others _ mode_apart]
    have fitting : (encXlFs (s.rangeFor v)).toNat < 2 ^ s.cfg.fXlFs.w := by
      rw [width]
      exact encXlFs_lt _
    have code : t.cfg.fXlFs.get (t.reg t.cfg.regCtrlXl) = encXlFs (s.rangeFor v) := by
      rw [cfg, byte, Field.get_put fits _ fitting]
    have data : u.data = word (decXlFs (t.cfg.fXlFsmode.get (t.reg t.cfg.regFsm) == 1)
        (t.cfg.fXlFs.get (t.reg t.cfg.regCtrlXl))).g :=
      exec_onOk rfl u_idle u_ok hget (getXlRange_onOk (s := t.accepting _) (cfg ▸ hc))
    rw [data, mode, code, State.rangeFor, decXlFs_encXlFs_rangePolicy, XlRange.word_g, rangePolicy_g, operand]
  case rate =>
    obtain ⟨-, -, cfg⟩ := exec_keeps hset
    obtain ⟨-, fits, -⟩ := Cfg.wf_shape hc _ s.cfg.fXlOdr_mem
    obtain ⟨code_lt, -⟩ := Cfg.wf_codes hc
    obtain ⟨v, operand, written⟩ := exec_onOk busy t_idle t_ok hset (setXlOdr_onOk hc)
    obtain ⟨byte, -⟩ := State.reg_of_regsWith canonical written
    have code : t.cfg.fXlOdr.get (t.reg t.cfg.regCtrlXl) = t.cfg.odrCodeXl.code (s.rateFor v) := by
      rw [cfg, byte, Field.get_put fits _ (code_lt _)]
    have data : u.data = word (s.rateFor v).dHz :=
      exec_onOk rfl u_idle u_ok hget (getXlOdr_onOk (s := t.accepting _) (cfg ▸ hc) code)
    rw [data, XlRate.word_dHz, State.rateFor, ratePolicy_dHz, operand]

end Sys2Proof.Machine
end

section
/-! The gyroscope's setters completed (41_codec_gyro.md R160, R162), and its settings read back (R168): each command reads
and writes one register, in which the fields it decodes are apart from one another. -/

namespace Sys2Proof

/-! ### The range in the byte of its register -/

/-- A value put in one field leaves the value of another field of the same register (R62, R97). -/
theorem Field.get_put_other {c : Cfg} (hc : c.wf = true) {f g : Field} (hf : f ∈ c.fields) (hg : g ∈ c.fields) (ne : f ≠ g)
    (same : f.reg = g.reg) (b v : Byte) : g.get (f.put b v) = g.get b := by
  obtain ⟨-, f_fits, -⟩ := Cfg.wf_shape hc f hf
  obtain ⟨-, g_fits, -⟩ := Cfg.wf_shape hc g hg
  refine Field.get_congr g_fits fun k hk => ?_
  have outside : f.mask.getLsbD k = false := Cfg.mask_disjoint hc hf hg ne same hk
  simp [Field.put_getLsbD f_fits, outside]

/-- The byte of `REG_CTRL_G` with the code and the flag of a range in place (R160). -/
def Cfg.withGRange (c : Cfg) (b : Byte) (v : GRange) : Byte := c.fGFs125.put (c.fGFs.put b (encGFs v).2) (encGFs v).1

/-- The range for which a byte of `REG_CTRL_G` stands (R161). -/
def Cfg.gRangeOf (c : Cfg) (b : Byte) : GRange := decGFs (c.fGFs125.get b == 1) (c.fGFs.get b)

/-- The decoding of R100 undoes its encoding. -/
theorem decGFs_encGFs (v : GRange) : decGFs ((encGFs v).1 == 1) (encGFs v).2 = v := by cases v <;> rfl

/-- Every flag and every code fits its field (R97, R100). -/
theorem encGFs_flag_lt (v : GRange) : (encGFs v).1.toNat < 2 ^ 1 := by cases v <;> decide
theorem encGFs_code_lt (v : GRange) : (encGFs v).2.toNat < 2 ^ 2 := by cases v <;> decide

/-- Each row of R100's encoding is that of a range. -/
theorem encGFs_table {n : Nat} {flag code : Byte}
    (row : (n, flag, code) ∈ [(125, 1, 0), (250, 0, 0), (500, 0, 1), (1000, 0, 2), (2000, 0, 3)]) :
    ∃ v : GRange, v.dps = n ∧ encGFs v = (flag, code) := by
  simp only [List.mem_cons, List.not_mem_nil, or_false, Prod.mk.injEq] at row
  rcases row with ⟨rfl, rfl, rfl⟩ | ⟨rfl, rfl, rfl⟩ | ⟨rfl, rfl, rfl⟩ | ⟨rfl, rfl, rfl⟩ | ⟨rfl, rfl, rfl⟩
  · exact ⟨.dps125, rfl, rfl⟩
  · exact ⟨.dps250, rfl, rfl⟩
  · exact ⟨.dps500, rfl, rfl⟩
  · exact ⟨.dps1000, rfl, rfl⟩
  · exact ⟨.dps2000, rfl, rfl⟩

/-- The range put is the range got: the flag is put last, and leaves the code (R97, R160, R161). -/
theorem Cfg.gRangeOf_withGRange {c : Cfg} (hc : c.wf = true) (b : Byte) (v : GRange) :
    c.gRangeOf (c.withGRange b v) = v := by
  obtain ⟨-, -, -, code_reg, flag_reg, -⟩ := Cfg.wf_regs hc
  obtain ⟨-, code_width, flag_width, -⟩ := Cfg.wf_widths hc
  obtain ⟨-, flag_fits, -⟩ := Cfg.wf_shape hc _ c.fGFs125_mem
  obtain ⟨-, code_fits, -⟩ := Cfg.wf_shape hc _ c.fGFs_mem
  have flag_lt : (encGFs v).1.toNat < 2 ^ c.fGFs125.w := flag_width.symm ▸ encGFs_flag_lt v
  have code_lt : (encGFs v).2.toNat < 2 ^ c.fGFs.w := code_width.symm ▸ encGFs_code_lt v
  have apart : c.fGFs125 ≠ c.fGFs := fun e => by simp [e, code_width] at flag_width
  have flag : c.fGFs125.get (c.withGRange b v) = (encGFs v).1 := Field.get_put flag_fits _ flag_lt
  have code : c.fGFs.get (c.withGRange b v) = (encGFs v).2 := by
    rw [withGRange, Field.get_put_other hc c.fGFs125_mem c.fGFs_mem apart (flag_reg.trans code_reg.symm),
      Field.get_put code_fits _ code_lt]
  rw [gRangeOf, flag, code, decGFs_encGFs]

theorem GRange.word_dps (v : GRange) : (word v.dps).toNat = v.dps := by cases v <;> rfl
theorem GRate.word_dHz (v : GRate) : (word v.dHz).toNat = v.dHz := by cases v <;> rfl

namespace Machine

/-! ### The setters completed -/

/-- Settles O27: each setter is one update of `REG_CTRL_G`, for the setting that the operand names. -/
theorem gyroSettersComplete : Obligations.GyroSettersComplete := by
  unfold Obligations.GyroSettersComplete
  intro s arg a1 a2 rest hc ready hin ok1 ok2
  refine ⟨fun flag code row => ?range, fun v operand => ?rate⟩
  case range =>
    obtain ⟨v, operand, encoded⟩ := encGFs_table row
    obtain ⟨rfl, rfl⟩ := Prod.mk.inj encoded
    exact exec_ends rfl ((asGRange_eq_some arg v).2 operand) ready hin
      (updateFields_ends hc s.cfg.regCtrlG_control ok1 ok2 (complete_ends 0))
  case rate =>
    exact exec_ends rfl ((asGRate_eq_some arg v).2 operand.symm) ready hin
      (updateFields_ends hc s.cfg.regCtrlG_control ok1 ok2 (complete_ends 0))

/-! ### Setter, then getter -/

/-- A register read in a program of which only the completion with `OK` matters. -/
theorem readReg_onOk {c : Cfg} {regs : List Host.Cell} {Q : List Host.Cell → Word → Prop} {r : Byte} {k : Byte → Prog}
    (hc : c.wf = true) (hr : r ∈ c.controlAddrs) (next : (k (Memory.read regs r.toNat)).OnOk c Q regs) :
    (readReg r k).OnOk c Q regs :=
  readControl_leaves hc hr trivial nofun next

/-- Registers of `s` with the range for the operand in place (R160). -/
def State.GRangeSet (s : State) (arg : Operand) (regs : List Host.Cell) : Prop :=
  ∃ v : GRange, v.dps = arg.toNat ∧ regs = s.regsWith s.cfg.regCtrlG (s.cfg.withGRange (s.reg s.cfg.regCtrlG) v)

/-- Registers of `s` with the code of the rate for the operand in place (R162). -/
def State.GRateSet (s : State) (arg : Operand) (regs : List Host.Cell) : Prop :=
  ∃ v : GRate, v.dHz = arg.toNat ∧
    regs = s.regsWith s.cfg.regCtrlG (s.cfg.fGOdr.put (s.reg s.cfg.regCtrlG) (s.cfg.odrCodeG.code v))

/-- `SET_G_RANGE` on `OK` (R160). -/
theorem setGRange_onOk {s : State} {arg : Operand} (hc : s.cfg.wf = true) :
    (progOf (.setGRange arg) s).OnOk s.cfg (fun regs _ => s.GRangeSet arg regs) s.regs :=
  onOperand_onOk fun v named =>
    updateFields_onOk hc s.cfg.regCtrlG_control ⟨v, (asGRange_eq_some arg v).1 named, rfl⟩

/-- `GET_G_RANGE` on `OK` (R161). -/
theorem getGRange_onOk {s : State} (hc : s.cfg.wf = true) :
    (progOf (.getGRange 0) s).OnOk s.cfg (fun _ d => d = word (s.cfg.gRangeOf (s.reg s.cfg.regCtrlG)).dps) s.regs := by
  rw [progOf, getGRangeProg]
  exact onOperand_onOk fun _ _ => readReg_onOk hc s.cfg.regCtrlG_control (complete_onOk rfl)

/-- `SET_G_ODR` on `OK` (R162). -/
theorem setGOdr_onOk {s : State} {arg : Operand} (hc : s.cfg.wf = true) :
    (progOf (.setGOdr arg) s).OnOk s.cfg (fun regs _ => s.GRateSet arg regs) s.regs :=
  onOperand_onOk fun v named =>
    updateFields_onOk hc s.cfg.regCtrlG_control ⟨v, (asGRate_eq_some arg v).1 named, rfl⟩

/-- `GET_G_ODR` on `OK` (R163). -/
theorem getGOdr_onOk {s : State} (hc : s.cfg.wf = true) {v : GRate}
    (coded : s.cfg.fGOdr.get (s.reg s.cfg.regCtrlG) = s.cfg.odrCodeG.code v) :
    (progOf (.getGOdr 0) s).OnOk s.cfg (fun _ d => d = word v.dHz) s.regs := by
  obtain ⟨-, -, gReg, -⟩ := Cfg.wf_regs hc
  have rate : s.cfg.odrCodeG.rate (s.cfg.fGOdr.get (Memory.read s.regs s.cfg.fGOdr.reg.toNat)) = some v := by
    rw [gReg, ← GOdrCodes.rate_code hc, ← coded]
    rfl
  rw [progOf, getGOdrProg_eq]
  refine onOperand_onOk fun _ _ => readField_onOk hc s.cfg.fGOdr_mem ?_
  rw [rate]
  exact complete_onOk rfl

/-- Settles O44: the getter decodes what the setter put in a register that nothing has changed since. -/
theorem gyroRoundTrip : Obligations.GyroRoundTrip := by
  unfold Obligations.GyroRoundTrip
  intro s t u arg hc canonical busy t_idle t_ok u_idle u_ok
  refine ⟨fun hset hget => ?range, fun hset hget => ?rate⟩
  case range =>
    obtain ⟨-, -, cfg⟩ := exec_keeps hset
    obtain ⟨v, operand, written⟩ := exec_onOk busy t_idle t_ok hset (setGRange_onOk hc)
    obtain ⟨byte, -⟩ := State.reg_of_regsWith canonical written
    have data : u.data = word (t.cfg.gRangeOf (t.reg t.cfg.regCtrlG)).dps :=
      exec_onOk rfl u_idle u_ok hget (getGRange_onOk (s := t.accepting _) (cfg ▸ hc))
    rw [data, cfg, byte, Cfg.gRangeOf_withGRange hc, GRange.word_dps, operand]
  case rate =>
    obtain ⟨-, -, cfg⟩ := exec_keeps hset
    obtain ⟨-, fits, -⟩ := Cfg.wf_shape hc _ s.cfg.fGOdr_mem
    obtain ⟨-, code_lt, -⟩ := Cfg.wf_codes hc
    obtain ⟨v, operand, written⟩ := exec_onOk busy t_idle t_ok hset (setGOdr_onOk hc)
    obtain ⟨byte, -⟩ := State.reg_of_regsWith canonical written
    have code : t.cfg.fGOdr.get (t.reg t.cfg.regCtrlG) = t.cfg.odrCodeG.code v := by
      rw [cfg, byte, Field.get_put fits _ (code_lt _)]
    have data : u.data = word v.dHz :=
      exec_onOk rfl u_idle u_ok hget (getGOdr_onOk (s := t.accepting _) (cfg ▸ hc) code)
    rw [data, GRate.word_dHz, operand]

end Machine
end Sys2Proof
end

section
/-! The stored auto-increment bit (42_codec_common.md R194, 70_reset_and_hazards.md R317): it is a field of its own, so no
command but `INIT` touches it, and the only value `INIT` puts in it is 1 (45_system.md R250). -/

namespace Sys2Proof

theorem Cfg.regCtrlC_control (c : Cfg) : c.regCtrlC ∈ c.controlAddrs := by simp [controlAddrs]
theorem Cfg.fIfInc_mem (c : Cfg) : c.fIfInc ∈ c.fields := by simp [fields]

/-- The eleven descriptors are different from one another: a field shares its first bit with no other one (R97). -/
theorem Cfg.fields_nodup {c : Cfg} (hc : c.wf = true) : c.fields.Nodup := by
  refine (Cfg.wf_disjoint hc).imp_of_mem fun {f g} hf _ apart => ?_
  rintro rfl
  obtain ⟨nonempty, fits, -⟩ := Cfg.wf_shape hc f hf
  have inside : f.mask.getLsbD f.lsb = true := by
    rw [Field.mask_getLsbD fits, decide_eq_true_eq]
    omega
  have empty : f.mask = 0 := (BitVec.and_self (x := f.mask)).symm.trans (apart rfl)
  simp [empty] at inside

/-- The descriptors of R95 but that of auto-increment. -/
def Cfg.otherFields (c : Cfg) : List Field :=
  [c.fXlOdr, c.fXlFs, c.fGOdr, c.fGFs, c.fGFs125, c.fBdu] ++ [c.fXlFsmode, c.fXlHp, c.fGHp, c.fEmb]

theorem Cfg.fIfInc_not_mem_otherFields {c : Cfg} (hc : c.wf = true) : c.fIfInc ∉ c.otherFields :=
  (List.nodup_cons.1 (List.nodup_middle.1 (Cfg.fields_nodup hc))).1

namespace Machine

/-- What a program leaves meets every weaker condition. -/
theorem Prog.Leaves.imp {c : Cfg} {W W' : List Host.Cell → Prop} {R R' : List Host.Cell → Status → Word → Prop}
    {regs : List Host.Cell} {p : Prog} (h : p.Leaves c W R regs) (wait : ∀ regs, W regs → W' regs)
    (completed : ∀ regs st d, R regs st d → R' regs st d) : p.Leaves c W' R' regs := by
  intro s hc hr
  rcases h s hc hr with ⟨busy, left⟩ | ⟨st, idle, res, left⟩
  · exact .inl ⟨busy, wait _ left⟩
  · exact .inr ⟨st, idle, res, completed _ _ _ left⟩

/-- The auto-increment field is written by `INIT` alone (R194). -/
theorem fIfInc_not_own {c : Cfg} (hc : c.wf = true) {i : Instr} (not_init : ∀ a, i ≠ .init a) :
    c.fIfInc ∉ ownFields c i := by
  have own_other : ownFields c i ⊆ c.otherFields := by
    cases i with
    | init a => exact absurd rfl (not_init a)
    | _ => simp [ownFields, Cfg.otherFields]
  exact fun own => Cfg.fIfInc_not_mem_otherFields hc (own_other own)

/-- The auto-increment field is stored 1 in the device's registers (R317). -/
def IncStored (c : Cfg) (regs : List Host.Cell) : Prop := c.fIfInc.get (Memory.read regs c.regCtrlC.toNat) = 1

/-- Once 1 is put in the field, it is stored. -/
theorem incStored_write {c : Cfg} {regs : List Host.Cell} (hc : c.wf = true) (canonical : Memory.wf regs) :
    IncStored c (Memory.write regs c.regCtrlC.toNat (c.fIfInc.put (Memory.read regs c.regCtrlC.toNat) 1)) := by
  obtain ⟨-, -, -, -, -, width, -⟩ := Cfg.wf_widths hc
  obtain ⟨-, fits, -⟩ := Cfg.wf_shape hc _ c.fIfInc_mem
  have one_fits : (1 : Byte).toNat < 2 ^ c.fIfInc.w := by rw [width]; decide
  rw [IncStored, Memory.read_write_same _ _ _ canonical, Field.get_put fits _ one_fits]

/-- A field that is not inverted is on where it is stored 1 (R101). -/
theorem State.autoInc_iff {s : State} (hc : s.cfg.wf = true) (straight : s.cfg.fIfInc.inv = false) :
    s.autoInc = true ↔ IncStored s.cfg s.regs := by
  obtain ⟨-, -, -, -, -, -, inc_reg, -⟩ := Cfg.wf_regs hc
  obtain ⟨-, -, -, -, -, width, -⟩ := Cfg.wf_widths hc
  obtain ⟨-, fits, -⟩ := Cfg.wf_shape hc _ s.cfg.fIfInc_mem
  simp [State.autoInc, IncStored, Field.getBool_eq_true_iff fits width, straight, inc_reg]

/-- `INIT` that has its operand never clears the bit, and has set it where it completes with `OK` (R250). -/
theorem progOf_init_incStored {s : State} {a : Operand} (hc : s.cfg.wf = true) (canonical : Memory.wf s.regs) :
    (progOf (.init a) s).Leaves s.cfg (fun regs => IncStored s.cfg s.regs → IncStored s.cfg regs)
      (fun regs st _ => (IncStored s.cfg s.regs → IncStored s.cfg regs) ∧ (st = .ok → IncStored s.cfg regs)) s.regs := by
  have set := incStored_write hc canonical
  refine onOperand_leaves ⟨id, nofun⟩ fun _ _ => setReady_leaves (readReg_leaves id ⟨id, nofun⟩ fun _ => ite_leaves ?_ ?_)
  · exact updateFields_leaves hc s.cfg.regCtrlC_control id ⟨id, nofun⟩ ⟨fun _ => set, nofun⟩
      (setReady_leaves (finish_leaves ⟨fun _ => set, fun _ => set⟩))
  · exact finish_leaves ⟨id, nofun⟩

/-- No command clears the stored bit, however it goes. -/
theorem exec_keeps_incStored {i : Instr} {s t : State} (hc : s.cfg.wf = true) (canonical : Memory.wf s.regs)
    (h : exec i s = .next t) (stored : IncStored s.cfg s.regs) : IncStored s.cfg t.regs := by
  by_cases is_init : ∃ a, i = .init a
  · obtain ⟨a, rfl⟩ := is_init
    rcases exec_cases h with ⟨-, rfl⟩ | ⟨-, -, -, rfl⟩ | ⟨-, -, rfl⟩
    · exact stored
    · exact stored
    · rcases progOf_init_incStored hc canonical s.fresh rfl rfl with ⟨-, kept⟩ | ⟨-, -, -, kept, -⟩
      · exact kept stored
      · exact kept stored
  · obtain ⟨-, -, -, -, -, -, inc_reg, -⟩ := Cfg.wf_regs hc
    obtain ⟨-, foreign_kept⟩ := settersPreserveForeignBits i s t hc canonical h
    have kept := foreign_kept _ s.cfg.fIfInc_mem (fIfInc_not_own hc (not_exists.1 is_init))
    rw [inc_reg] at kept
    exact kept.trans stored

/-- `INIT` that has completed with `OK` has set the stored bit (R250). -/
theorem init_ok_incStored {s t : State} {a : Operand} (hc : s.cfg.wf = true) (canonical : Memory.wf s.regs)
    (h : exec (.init a) s = .next t) (busy : s.busy = true) (idle : t.busy = false) (ok : t.res = 0) :
    IncStored s.cfg t.regs :=
  exec_onOk busy idle ok h (Q := fun regs _ => IncStored s.cfg regs)
    ((progOf_init_incStored hc canonical).imp (fun _ _ => trivial) fun _ _ _ left => left.2)

/-- Settles O42: auto-increment itself, where it is not inverted, is the stored bit. -/
theorem autoIncrementKept : Obligations.AutoIncrementKept := by
  unfold Obligations.AutoIncrementKept
  intro i s t hc canonical h
  obtain ⟨-, -, cfg⟩ := exec_keeps h
  have kept : IncStored s.cfg s.regs → IncStored t.cfg t.regs :=
    fun stored => cfg ▸ exec_keeps_incStored hc canonical h stored
  have set (busy : s.busy = true) (is_init : i = .init 0) (idle : t.busy = false) (ok : t.res = 0) :
      IncStored t.cfg t.regs := by
    subst is_init
    exact cfg ▸ init_ok_incStored hc canonical h busy idle ok
  refine ⟨kept, set, fun straight => ?_⟩
  have on_before := State.autoInc_iff hc straight
  have on_after : t.autoInc = true ↔ IncStored t.cfg t.regs := State.autoInc_iff (cfg ▸ hc) (cfg ▸ straight)
  rw [on_before, on_after]
  exact ⟨kept, set⟩

end Machine
end Sys2Proof
end

section
/-! The scaler's arithmetic (43_scaling.md R211 to R214): the sign and the magnitude of a value, followed through each of
the roundings of `scale` and into its encoding, and the obligations on `scale` assembled from them. -/

namespace Sys2Proof

/-! ### The sign -/

/-- The value with the other sign. -/
def Fp.negated (x : Fp) : Fp := { x with neg := !x.neg }

theorem roundTo_neg (f : FpFormat) (neg : Bool) (n d : Nat) : (roundTo f neg n d).neg = neg := by
  unfold roundTo
  split <;> rfl

theorem Fp.round_neg (f : FpFormat) (x : Fp) : (x.round f).neg = x.neg := roundTo_neg _ _ _ _

theorem roundTo_not (f : FpFormat) (neg : Bool) (n d : Nat) : roundTo f (!neg) n d = (roundTo f neg n d).negated := by
  unfold roundTo
  split <;> rfl

/-- Every operation of the scaler keeps a change of sign of its first operand. -/
theorem Fp.mul_negated (f : FpFormat) (x y : Fp) : mul f x.negated y = (mul f x y).negated := by
  rw [mul, mul, ← roundTo_not, ← Bool.not_xor]
  rfl
theorem Fp.div_negated (f : FpFormat) (x y : Fp) : div f x.negated y = (div f x y).negated := by
  rw [div, div, ← roundTo_not, ← Bool.not_xor]
  rfl
theorem Fp.round_negated (f : FpFormat) (x : Fp) : round f x.negated = (round f x).negated := by
  rw [round, round, ← roundTo_not]
  rfl

/-- Adding `2^31` to a number flips bit 31 of the word it stands for. -/
theorem ofNat_two_pow_31_add (n : Nat) : BitVec.ofNat 32 (2 ^ 31 + n) = BitVec.ofNat 32 n ^^^ 0x80000000 := by
  change _ = _ ^^^ BitVec.twoPow 32 31
  refine BitVec.eq_of_getLsbD_eq fun k hk => ?_
  simp only [BitVec.getLsbD_xor, BitVec.getLsbD_ofNat, BitVec.getLsbD_twoPow, hk, decide_true, Bool.true_and]
  rcases Nat.lt_or_eq_of_le (Nat.le_of_lt_succ hk) with below | rfl
  · simp [Nat.testBit_two_pow_add_gt below, below.ne']
  · simp [Nat.testBit_two_pow_add_eq n 31]

/-- The encoding of a sign and a magnitude has its sign in bit 31 (R14). -/
theorem Fp.bits32_negated (x : Fp) : x.negated.bits32 = x.bits32 ^^^ 0x80000000 := by
  obtain ⟨neg, sig, exp⟩ := x
  cases neg
  · simp only [bits32, negated, Bool.not_false, if_true, ofNat_two_pow_31_add]
    simp
  · simp only [bits32, negated, Bool.not_true, if_true, ofNat_two_pow_31_add, BitVec.xor_assoc]
    simp

/-! ### The magnitude -/

/-- The magnitude of a value. -/
def Fp.mag (x : Fp) : ℚ := (x.num : ℚ) / x.den

theorem Fp.mag_eq (x : Fp) : x.mag = x.sig * 2 ^ x.exp := by
  have shifted := shiftLeft_div_shiftLeft x.sig 1 (-x.exp)
  rw [neg_neg, Nat.cast_one, div_one, zpow_neg, div_inv_eq_mul] at shifted
  exact shifted

theorem Fp.den_pos (x : Fp) : 0 < x.den := Nat.shiftLeft_pos_iff.2 one_pos

/-- The magnitude lies between two powers of two. -/
def Fp.Within (x : Fp) (a b : Int) : Prop := (2 : ℚ) ^ a ≤ x.mag ∧ x.mag ≤ 2 ^ b

theorem Fp.Within.num_pos {x : Fp} {a b : Int} (h : x.Within a b) : 0 < x.num := by
  have mag_pos : 0 < x.mag := lt_of_lt_of_le (by positivity) h.1
  refine Nat.pos_of_ne_zero fun zero => mag_pos.ne' ?_
  simp [mag, zero]

/-- The exponent of the last significand bit is at most that of a power of two that bounds the
fraction, if the least one is. -/
theorem lastExp_le {f : FpFormat} {n d : Nat} {b : Int} (hf : 1 ≤ f.prec) (hn : 0 < n) (hd : 0 < d) (hb : f.emin ≤ b)
    (upper : (n : ℚ) / d ≤ 2 ^ b) : lastExp f n d ≤ b := by
  have log_le : log2Ratio n d ≤ b := (zpow_le_zpow_iff_right₀ one_lt_two).1 ((log2Ratio_spec hn hd).1.trans upper)
  unfold lastExp
  omega

/-- A power of two in units of a lower one. -/
theorem two_zpow_eq_mul {c e : Int} (h : e ≤ c) : (2 : ℚ) ^ c = (2 ^ (c - e).toNat : Nat) * 2 ^ e := by
  rw [Nat.cast_pow, Nat.cast_two, ← zpow_natCast, Int.toNat_of_nonneg (Int.sub_nonneg.2 h), ← zpow_add₀ two_ne_zero,
    sub_add_cancel]

/-- Rounding does not pass a power of two that the format can hold. -/
theorem roundTo_within {f : FpFormat} (neg : Bool) {n d : Nat} {a b : Int} (hf : 1 ≤ f.prec) (hd : 0 < d) (ha : f.emin ≤ a)
    (lower : (2 : ℚ) ^ a ≤ (n : ℚ) / d) (upper : (n : ℚ) / d ≤ 2 ^ b) : (roundTo f neg n d).Within a b := by
  have hn : 0 < n := Nat.pos_of_ne_zero fun zero => by
    have two_zpow_pos : (0 : ℚ) < 2 ^ a := by positivity
    rw [zero, Nat.cast_zero, zero_div] at lower
    exact lower.not_gt two_zpow_pos
  have a_le_b : a ≤ b := (zpow_le_zpow_iff_right₀ one_lt_two).1 (lower.trans upper)
  have last_le := lastExp_le hf hn hd (ha.trans a_le_b) upper
  obtain ⟨-, -, -, normalised, -, -⟩ := Machine.roundingIsNearestEven f neg n d hf hn hd
  rw [Fp.Within, Fp.mag_eq]
  rw [roundTo_of_pos f neg d hn] at normalised ⊢
  dsimp only at normalised ⊢
  generalize lastExp f n d = e at *
  have hD : 0 < d <<< e.toNat := Nat.shiftLeft_pos_iff.2 hd
  have ulp_pos : (0 : ℚ) < 2 ^ e := by positivity
  have scaled := shiftLeft_div_shiftLeft n d e
  constructor
  · rcases le_or_gt e a with below | above
    · rw [two_zpow_eq_mul below] at lower ⊢
      have := le_divNearestEven hD (scaled ▸ (le_div_iff₀ ulp_pos).2 lower)
      exact mul_le_mul_of_nonneg_right (by exact_mod_cast this) ulp_pos.le
    · have one_le : 1 ≤ divNearestEven (n <<< (-e).toNat) (d <<< e.toNat) :=
        Nat.one_le_two_pow.trans (normalised.resolve_left (by omega))
      calc (2 : ℚ) ^ a ≤ 2 ^ e := zpow_le_zpow_right₀ one_le_two above.le
        _ ≤ _ := le_mul_of_one_le_left ulp_pos.le (by exact_mod_cast one_le)
  · rw [two_zpow_eq_mul last_le] at upper ⊢
    have := divNearestEven_le hD (scaled ▸ (div_le_iff₀ ulp_pos).2 upper)
    exact mul_le_mul_of_nonneg_right (by exact_mod_cast this) ulp_pos.le

section
variable {f : FpFormat} {x y : Fp} {a b c d : Int}

/-- The operations on magnitudes between powers of two. -/
theorem Fp.Within.mul (hf : 1 ≤ f.prec) (hx : x.Within a b) (hy : y.Within c d) (least : f.emin ≤ a + c) :
    (Fp.mul f x y).Within (a + c) (b + d) := by
  have product : ((x.num * y.num : Nat) : ℚ) / (x.den * y.den : Nat) = x.mag * y.mag := by
    rw [mag, mag, div_mul_div_comm, Nat.cast_mul, Nat.cast_mul]
  refine roundTo_within _ hf (Nat.mul_pos x.den_pos y.den_pos) least ?_ ?_
  · rw [product, zpow_add₀ two_ne_zero]
    exact mul_le_mul hx.1 hy.1 (by positivity) (le_trans (by positivity) hx.1)
  · rw [product, zpow_add₀ two_ne_zero]
    exact mul_le_mul hx.2 hy.2 (le_trans (by positivity) hy.1) (by positivity)

theorem Fp.Within.div (hf : 1 ≤ f.prec) (hx : x.Within a b) (hy : y.Within c d) (least : f.emin ≤ a - d) :
    (Fp.div f x y).Within (a - d) (b - c) := by
  have quotient : ((x.num * y.den : Nat) : ℚ) / (x.den * y.num : Nat) = x.mag / y.mag := by
    rw [mag, mag, div_div_div_eq, Nat.cast_mul, Nat.cast_mul]
  have y_pos : 0 < y.mag := lt_of_lt_of_le (by positivity) hy.1
  refine roundTo_within _ hf (Nat.mul_pos x.den_pos hy.num_pos) least ?_ ?_
  · rw [quotient, zpow_sub₀ two_ne_zero]
    exact div_le_div₀ (le_trans (by positivity) hx.1) hx.1 y_pos hy.2
  · rw [quotient, zpow_sub₀ two_ne_zero]
    exact div_le_div₀ (by positivity) hx.2 (by positivity) hy.1

theorem Fp.Within.round (hf : 1 ≤ f.prec) (hx : x.Within a b) (least : f.emin ≤ a) : (x.round f).Within a b :=
  roundTo_within _ hf x.den_pos least hx.1 hx.2

end

/-! ### The encoding of a normal value -/

/-- A significand that rounding carried is encoded as the next power of two. -/
theorem Fp.bits32_carried (neg : Bool) (exp : Int) : bits32 ⟨neg, 2 ^ 24, exp⟩ = bits32 ⟨neg, 2 ^ 23, exp + 1⟩ := by
  simp [bits32]

/-- The encoding of a normal value: sign, exponent field and fraction (R14). -/
theorem Fp.bits32_toNat {neg : Bool} {sig : Nat} {exp : Int} (sig_ge : 2 ^ 23 ≤ sig) (sig_lt : sig < 2 ^ 24)
    (exp_ge : -149 ≤ exp) (exp_le : exp ≤ 104) :
    (bits32 ⟨neg, sig, exp⟩).toNat = neg.toNat * 2 ^ 31 + ((exp + 150).toNat * 2 ^ 23 + (sig - 2 ^ 23)) := by
  have in_range : ¬254 < exp + 150 := by omega
  simp only [bits32, sig_lt.ne, if_false, sig_ge.not_gt, in_range, BitVec.toNat_ofNat]
  cases neg <;> simp only [Bool.toNat_false, Bool.toNat_true, Bool.false_eq_true, if_true, if_false] <;> omega

/-- A word with the sign `neg` in bit 31 and an exponent field that is neither 0 nor 255 (R14). -/
def Word.EncodesNormal (w : Word) (neg : Bool) : Prop :=
  w.getLsbD 31 = neg ∧ 1 ≤ (w.extractLsb' 23 8).toNat ∧ (w.extractLsb' 23 8).toNat ≤ 254

theorem Fp.bits32_normal_of_lt {neg : Bool} {sig : Nat} {exp : Int} (sig_ge : 2 ^ 23 ≤ sig) (sig_lt : sig < 2 ^ 24)
    (exp_ge : -149 ≤ exp) (exp_le : exp ≤ 104) : Word.EncodesNormal (bits32 ⟨neg, sig, exp⟩) neg := by
  have word := bits32_toNat (neg := neg) sig_ge sig_lt exp_ge exp_le
  rw [Word.EncodesNormal, BitVec.getLsbD, Nat.testBit_eq_decide_div_mod_eq, BitVec.extractLsb'_toNat,
    Nat.shiftRight_eq_div_pow, word]
  refine ⟨?sign, by omega, by omega⟩
  case sign =>
    cases neg <;> simp only [Bool.toNat_false, Bool.toNat_true, decide_eq_true_eq, decide_eq_false_iff_not] <;> omega

/-- A normal value is encoded as one, whether rounding carried its significand or not. -/
theorem Fp.bits32_normal {x : Fp} (sig_ge : 2 ^ 23 ≤ x.sig) (sig_le : x.sig ≤ 2 ^ 24) (exp_ge : -149 ≤ x.exp)
    (exp_le : x.exp ≤ 103) : Word.EncodesNormal x.bits32 x.neg := by
  obtain ⟨neg, sig, exp⟩ := x
  dsimp only at sig_ge sig_le exp_ge exp_le ⊢
  rcases Nat.lt_or_eq_of_le sig_le with below | carried
  · exact bits32_normal_of_lt sig_ge below exp_ge (by omega)
  · subst carried
    rw [bits32_carried]
    exact bits32_normal_of_lt le_rfl (by decide) (by omega) (by omega)

/-- A value between powers of two far enough inside the range of binary32 rounds to a value that is encoded as normal: with
the least exponent or without the leading bit it would be below the lower bound, with a greater exponent above the upper one. -/
theorem Fp.Within.bits32_round_normal {x : Fp} {a b : Int} (h : x.Within a b) (ha : -125 < a) (hb : b ≤ 126) :
    Word.EncodesNormal (x.round Sys2Proof.binary32).bits32 x.neg := by
  obtain ⟨lower, upper⟩ := h.round (f := Sys2Proof.binary32) (by decide) (show (-149 : Int) ≤ a by omega)
  obtain ⟨-, -, sig_le, normalised, exp_ge, -⟩ :=
    Machine.roundingIsNearestEven Sys2Proof.binary32 x.neg x.num x.den (by decide) h.num_pos x.den_pos
  rw [← round_neg Sys2Proof.binary32 x]
  set r := x.round Sys2Proof.binary32
  change r.sig ≤ 2 ^ 24 at sig_le
  change r.exp = -149 ∨ 2 ^ 23 ≤ r.sig at normalised
  change -149 ≤ r.exp at exp_ge
  rw [mag_eq] at lower upper
  have ulp_pos : (0 : ℚ) < 2 ^ r.exp := by positivity
  have lower_le : a ≤ 24 + r.exp := by
    refine (zpow_le_zpow_iff_right₀ (one_lt_two (α := ℚ))).1 ?_
    calc (2 : ℚ) ^ a ≤ r.sig * 2 ^ r.exp := lower
      _ ≤ (2 ^ 24 : Nat) * 2 ^ r.exp := mul_le_mul_of_nonneg_right (by exact_mod_cast sig_le) ulp_pos.le
      _ = 2 ^ (24 + r.exp) := by rw [zpow_add₀ two_ne_zero]; norm_num
  have sig_ge : 2 ^ 23 ≤ r.sig := normalised.resolve_left (by omega)
  have le_upper : 23 + r.exp ≤ b := by
    refine (zpow_le_zpow_iff_right₀ (one_lt_two (α := ℚ))).1 ?_
    calc (2 : ℚ) ^ (23 + r.exp) = (2 ^ 23 : Nat) * 2 ^ r.exp := by rw [zpow_add₀ two_ne_zero]; norm_num
      _ ≤ r.sig * 2 ^ r.exp := mul_le_mul_of_nonneg_right (by exact_mod_cast sig_ge) ulp_pos.le
      _ ≤ 2 ^ b := upper
  exact bits32_normal sig_ge sig_le exp_ge (by omega)

/-! ### The quotient that `scale` rounds and encodes -/

/-- The product of the sample and the sensitivity, divided by 1000, in the evaluation format (R213). -/
def scaleQuotient (m : FpEval) (raw : Sample) (s : Nat) : Fp :=
  Fp.div m.format (Fp.mul m.format (fpOfSample m.format raw) (fpOfMilli m.format s)) (roundTo m.format false 1000 1)

theorem scale_eq (m : FpEval) (raw : Sample) (s : Nat) :
    scale m raw s = ((scaleQuotient m raw s).round Sys2Proof.binary32).bits32 := rfl

theorem FpEval.format_bounds (m : FpEval) : 1 ≤ m.format.prec ∧ m.format.emin ≤ -149 := by cases m <;> decide

theorem natAbs_toInt_bounds {raw : Sample} (h : raw ≠ 0) :
    (1 : ℚ) ≤ raw.toInt.natAbs ∧ (raw.toInt.natAbs : ℚ) ≤ 2 ^ 15 := by
  have ne : raw.toInt ≠ 0 := fun e => h (BitVec.toInt_inj.1 e)
  have lt : raw.toInt < 2 ^ 15 := BitVec.toInt_lt
  have ge : -2 ^ 15 ≤ raw.toInt := BitVec.le_toInt raw
  exact ⟨by exact_mod_cast (by omega : 1 ≤ raw.toInt.natAbs), by exact_mod_cast (by omega : raw.toInt.natAbs ≤ 2 ^ 15)⟩

/-- A sensitivity has no sign of its own, nor has 1000 (R214). -/
theorem scaleQuotient_neg (m : FpEval) (raw : Sample) (s : Nat) :
    (scaleQuotient m raw s).neg = decide (raw.toInt < 0) := by
  simp [scaleQuotient, Fp.div, Fp.mul, fpOfSample, fpOfMilli, roundTo_neg]

/-- The bounds of R214, widened to powers of two: the sample lies in `[1, 2^15]`, the sensitivity in `[2^-5, 2^7]`. -/
theorem scaleQuotient_within (m : FpEval) {raw : Sample} {s : Nat} (hraw : raw ≠ 0) (hs : 61 ≤ s ∧ s ≤ 70000) :
    (scaleQuotient m raw s).Within (-15) 13 := by
  obtain ⟨hf, least⟩ := m.format_bounds
  obtain ⟨raw_ge, raw_le⟩ := natAbs_toInt_bounds hraw
  have s_ge : (61 : ℚ) ≤ s := by exact_mod_cast hs.1
  have s_le : (s : ℚ) ≤ 70000 := by exact_mod_cast hs.2
  have sample : (fpOfSample m.format raw).Within 0 15 :=
    roundTo_within _ hf one_pos (by omega) (by simpa using raw_ge) (by simpa using raw_le)
  have sens : (fpOfMilli m.format s).Within (-5) 7 :=
    roundTo_within _ hf (by decide) (by omega) (by norm_num; linarith) (by norm_num; linarith)
  have thousand : (roundTo m.format false 1000 1).Within 9 10 :=
    roundTo_within _ hf one_pos (by omega) (by norm_num) (by norm_num)
  have product := sample.mul hf sens (by omega)
  exact product.div hf thousand (by omega)

/-- Every operation of the scaler takes a zero to the zero of the format. -/
theorem roundTo_zero (f : FpFormat) (neg : Bool) (d : Nat) : roundTo f neg 0 d = ⟨neg, 0, f.emin⟩ := rfl
theorem Fp.zero_mul (f : FpFormat) (neg : Bool) (e : Int) (y : Fp) :
    mul f ⟨neg, 0, e⟩ y = ⟨neg ^^ y.neg, 0, f.emin⟩ := by
  simp [mul, num, roundTo_zero]
theorem Fp.zero_div (f : FpFormat) (neg : Bool) (e : Int) (y : Fp) :
    div f ⟨neg, 0, e⟩ y = ⟨neg ^^ y.neg, 0, f.emin⟩ := by
  simp [div, num, roundTo_zero]
theorem Fp.round_zero (f : FpFormat) (neg : Bool) (e : Int) : round f ⟨neg, 0, e⟩ = ⟨neg, 0, f.emin⟩ := by
  simp [round, num, roundTo_zero]

/-- The sample 0 gives +0 for every sensitivity (R214). -/
theorem scale_zero (m : FpEval) (s : Nat) : scale m 0 s = 0 := by
  have sample : fpOfSample m.format 0 = ⟨false, 0, m.format.emin⟩ := roundTo_zero _ _ _
  rw [scale_eq, scaleQuotient, sample, Fp.zero_mul, Fp.zero_div, fpOfMilli, roundTo_neg, roundTo_neg, Fp.round_zero]
  rfl

/-- A sample whose negation is representable, negated, is the value with the other sign. -/
theorem fpOfSample_neg (f : FpFormat) {raw : Sample} (nonzero : raw ≠ 0) (not_least : raw ≠ 0x8000) :
    fpOfSample f (-raw) = (fpOfSample f raw).negated := by
  have ne : raw.toInt ≠ 0 := fun e => nonzero (BitVec.toInt_inj.1 e)
  have sign : decide (-raw.toInt < 0) = !decide (raw.toInt < 0) := by
    rw [← decide_not, decide_eq_decide]
    omega
  rw [fpOfSample, fpOfSample, BitVec.toInt_neg_of_ne_intMin not_least, Int.natAbs_neg, sign, roundTo_not]

namespace Machine

/-- Settles O53: a sample other than 0 gives a value far inside the normal range, and the encoding of a normal value has
its sign and no special exponent field; the extremes by evaluation. -/
theorem scaleCornerCases : Obligations.ScaleCornerCases := by
  unfold Obligations.ScaleCornerCases
  intro m sens listed
  have hs : 61 ≤ sens ∧ sens ≤ 70000 := by
    simp only [List.mem_cons, List.not_mem_nil, or_false] at listed
    omega
  refine ⟨scale_zero m sens, fun raw nonzero => ?normal, ?least, ?greatest⟩
  case normal =>
    have encoded := (scaleQuotient_within m nonzero hs).bits32_round_normal (by decide) (by decide)
    rwa [scaleQuotient_neg] at encoded
  case least => cases m <;> decide
  case greatest => cases m <;> decide

/-- Settles O54: the sign of the sample goes through every operation into bit 31. -/
theorem scaleOddSymmetry : Obligations.ScaleOddSymmetry := by
  unfold Obligations.ScaleOddSymmetry
  intro m raw sens nonzero not_least
  have quotient : scaleQuotient m (-raw) sens = (scaleQuotient m raw sens).negated := by
    rw [scaleQuotient, scaleQuotient, fpOfSample_neg _ nonzero not_least, Fp.mul_negated, Fp.div_negated]
  rw [scale_eq, scale_eq, quotient, Fp.round_negated, Fp.bits32_negated]

/-- Settles O20, by evaluation of the tables. -/
theorem sensitivityTables : Obligations.SensitivityTables := by
  unfold Obligations.SensitivityTables
  decide

end Machine
end Sys2Proof
end

section
/-! The scaled reads completed (43_scaling.md R210, R215, R216): the raw-sample stage (44_raw_sample.md R232) on a
successful burst, the sensitivity tables, and the two commands followed over their transactions. -/

namespace Sys2Proof

/-- A sample is the number that its bytes make, the high one above the low one (R59). -/
theorem assemble_eq_ofNat (lo hi : Byte) : assemble lo hi = BitVec.ofNat 16 (lo.toNat + 256 * hi.toNat) := by
  have lo_lt := lo.isLt
  have hi_lt := hi.isLt
  apply BitVec.eq_of_toNat_eq
  rw [assemble, BitVec.toNat_append, ← Nat.shiftLeft_add_eq_or_of_lt lo_lt, Nat.shiftLeft_eq, BitVec.toNat_ofNat]
  omega

/-- The tables of R211 and R212, as the rows of mode or flag, code and sensitivity. -/
theorem sensXl_table {m c : Byte} {sens : Nat}
    (row : (m, c, sens) ∈ [(0, 0, 61), (0, 1, 488), (0, 2, 122), (0, 3, 244), (1, 0, 61), (1, 1, 61), (1, 2, 122),
      (1, 3, 244)]) :
    sensXl (m == 1) c = sens := by
  simp only [List.mem_cons, List.not_mem_nil, or_false, Prod.mk.injEq] at row
  obtain ⟨rfl, rfl, rfl⟩ | ⟨rfl, rfl, rfl⟩ | ⟨rfl, rfl, rfl⟩ | ⟨rfl, rfl, rfl⟩ | ⟨rfl, rfl, rfl⟩ | ⟨rfl, rfl, rfl⟩ |
    ⟨rfl, rfl, rfl⟩ | ⟨rfl, rfl, rfl⟩ := row <;> rfl

theorem sensG_table {flag code : Byte} {sens : Nat}
    (row : (flag, code, sens) ∈ [(0, 0, 8750), (0, 1, 17500), (0, 2, 35000), (0, 3, 70000), (1, 0, 4375), (1, 1, 4375),
      (1, 2, 4375), (1, 3, 4375)]) :
    sensG (flag == 1) code = sens := by
  simp only [List.mem_cons, List.not_mem_nil, or_false, Prod.mk.injEq] at row
  obtain ⟨rfl, rfl, rfl⟩ | ⟨rfl, rfl, rfl⟩ | ⟨rfl, rfl, rfl⟩ | ⟨rfl, rfl, rfl⟩ | ⟨rfl, rfl, rfl⟩ | ⟨rfl, rfl, rfl⟩ |
    ⟨rfl, rfl, rfl⟩ | ⟨rfl, rfl, rfl⟩ := row <;> rfl

namespace Machine

/-! ### The raw-sample stage on a successful burst -/

/-- An operand of class AXIS names an axis. -/
theorem asAxis_of_lt {arg : Operand} (h : arg.toNat < 3) : ∃ ax, asAxis arg = some ax ∧ ax.index = arg.toNat := by
  have named : (asAxis arg).isSome = true := by
    rw [asAxis_isSome, OperandClass.accepts, List.contains_iff_mem]
    simp only [OperandClass.values, List.mem_cons, List.not_mem_nil, or_false]
    omega
  obtain ⟨ax, named⟩ := Option.isSome_iff_exists.1 named
  exact ⟨ax, named, (asAxis_eq_some arg ax).1 named⟩

/-- The greatest value of a counter is that of `CNT_WIDTH` bits (R26). -/
theorem eq_cntMax_iff {c : Cfg} (hc : c.wf = true) (v : Word) : v = cntMax c ↔ v.toNat = 2 ^ c.cntWidth - 1 := by
  have width_le : 2 ^ c.cntWidth ≤ 2 ^ 32 := Nat.pow_le_pow_right (by omega) (Cfg.wf_width hc).2
  rw [← BitVec.toNat_inj, cntMax, BitVec.toNat_ofNat, Nat.mod_eq_of_lt (by omega)]

/-- The state `s` once a sample of these bytes has been counted, if it is all ones (R232). -/
def State.counted (s : State) (lo hi : Byte) : State :=
  { s with cntAllOnes := if lo = 0xFF ∧ hi = 0xFF then satInc s.cfg s.cntAllOnes else s.cntAllOnes }

theorem State.counted_eq {s : State} (hc : s.cfg.wf = true) (lo hi : Byte) :
    s.counted lo hi = { s with
      cntAllOnes :=
        if lo = 0xFF ∧ hi = 0xFF ∧ s.cntAllOnes.toNat ≠ 2 ^ s.cfg.cntWidth - 1 then s.cntAllOnes + 1
        else s.cntAllOnes } := by
  rw [counted, satInc]
  by_cases ones : lo = 0xFF ∧ hi = 0xFF
  · by_cases top : s.cntAllOnes = cntMax s.cfg
    · simp [ones, top, (eq_cntMax_iff hc _).1 rfl]
    · simp [ones, top, mt (eq_cntMax_iff hc _).2 top]
  · rw [if_neg ones, if_neg fun h => ones ⟨h.1, h.2.1⟩]

/-- A successful `RawStage` goes on with the sample drawn, counted if it is all ones (R232). -/
theorem rawStage_ends {s t : State} {regs : List Host.Cell} {ops : List TxOp} {rest : List Input} {a : Answer}
    {base : Byte} {ax : Axis} {k : Sample → Prog} (hc : s.cfg.wf = true) (low : sampleAddr base ax ∈ s.cfg.drawAddrs)
    (high : sampleAddr base ax + 1 ∈ s.cfg.drawAddrs) (ok : a.ok = true)
    (next : (k (assemble a.b0 a.b1)).Ends (s.counted a.b0 a.b1) regs (ops ++ [.readBurst (sampleAddr base ax)]) rest t) :
    (rawStage base ax k).Ends s regs ops (.answer a :: rest) t := by
  intro temps
  rw [rawStage, Prog.run_xfer_answer _ _ _ a rest rfl, reply_burst_draw (s := s.midway _ _ _ _) hc low high,
    State.midway_transact, if_pos ok]
  rw [State.counted] at next
  split_ifs at next ⊢ <;> exact next _

/-! ### The two commands -/

/-- Settles O33: the burst, the configuration reads, and the sensitivity by its table. -/
theorem scaledReadsComplete : Obligations.ScaledReadsComplete := by
  unfold Obligations.ScaledReadsComplete
  intro s arg a1 a2 a3 rest hc ready axis ok1 ok2 ok3
  obtain ⟨ax, named, index⟩ := asAxis_of_lt axis
  obtain ⟨xl_low, xl_high, g_low, g_high⟩ := sampleAddr_mem_draw s.cfg ax
  obtain ⟨-, xlReg, -, -, -, -, -, modeReg, -⟩ := Cfg.wf_regs hc
  dsimp only
  rw [← assemble_eq_ofNat, ← index]
  have counted := State.counted_eq hc a1.b0 a1.b1
  refine ⟨fun hin sens row => ?xl, fun hin sens row => ?gyro⟩
  case xl =>
    rw [← sensXl_table row, ← xlReg, ← modeReg]
    have ends := exec_ends (i := .readXl arg) rfl named ready hin (rawStage_ends hc xl_low xl_high ok1
      (readField_ends (s := s.counted _ _) hc s.cfg.fXlFs_mem ok2
        (readField_ends hc s.cfg.fXlFsmode_mem ok3 (complete_ends _))))
    rw [counted] at ends
    exact ends
  case gyro =>
    rw [← sensG_table row]
    have ends := exec_ends (i := .readG arg) rfl named ready hin (rawStage_ends hc g_low g_high ok1
      (readReg_ends (s := s.counted _ _) hc s.cfg.regCtrlG_control ok2 (complete_ends _)))
    rw [counted] at ends
    exact ends

end Machine
end Sys2Proof
end

section
/-! The raw samples (44_raw_sample.md R230 to R235): the value two bytes make, the raw reads completed, and the two counters
followed through the raw-sample stage and through every other command. -/

namespace Sys2Proof

/-! ### The value of a sample (R230) -/

/-- The pattern of a sample as a number. -/
theorem assemble_toNat (lo hi : Byte) : (assemble lo hi).toNat = lo.toNat + 256 * hi.toNat := by
  have lo_lt := lo.isLt
  have hi_lt := hi.isLt
  rw [assemble_eq_ofNat, BitVec.toNat_ofNat]
  omega

/-- Two's complement in 16 bits. -/
theorem Sample.toInt_eq (raw : Sample) :
    raw.toInt = if 0x8000 ≤ raw.toNat then (raw.toNat : Int) - 0x10000 else raw.toNat := by
  rw [BitVec.toInt_eq_toNat_cond]
  split_ifs <;> omega

/-- The word a raw read reports: the value of the sample in 32 bits (R233, R234). -/
theorem assemble_signExtend (lo hi : Byte) :
    let n : Int := lo.toNat + 256 * hi.toNat
    (assemble lo hi).signExtend 32 = BitVec.ofInt 32 (if 0x8000 ≤ n then n - 0x10000 else n) := by
  have same : ((assemble lo hi).toNat : Int) = lo.toNat + 256 * hi.toNat := by exact_mod_cast assemble_toNat lo hi
  have threshold : 0x8000 ≤ (assemble lo hi).toNat ↔ (0x8000 : Int) ≤ lo.toNat + 256 * hi.toNat := by omega
  rw [BitVec.signExtend, Sample.toInt_eq, same, if_congr threshold rfl rfl]

namespace Machine

/-- Settles O55: the pattern is the number of the bytes, and its value that of 16 bits. -/
theorem sampleAssembly : Obligations.SampleAssembly := by
  unfold Obligations.SampleAssembly
  intro lo hi
  refine ⟨?_, Sample.toInt_eq _⟩
  rw [assemble_toNat]
  omega

/-! ### The raw reads completed -/

/-- A sample command bursts at two registers whose reads are draws (R231). -/
theorem sampleBase_draws {c : Cfg} {i : Instr} {base : Byte} (sample : sampleBase c i = some base) (ax : Axis) :
    sampleAddr base ax ∈ c.drawAddrs ∧ sampleAddr base ax + 1 ∈ c.drawAddrs := by
  obtain ⟨xl_low, xl_high, g_low, g_high⟩ := sampleAddr_mem_draw c ax
  cases i with
  | readXl a | readRawXl a => cases sample; exact ⟨xl_low, xl_high⟩
  | readG a | readRawG a => cases sample; exact ⟨g_low, g_high⟩
  | _ => cases sample

/-- A raw read is one raw-sample stage, and reports the sample it draws (R233, R234). -/
theorem rawRead_completes {s : State} {a : Answer} {rest : List Input} {i : Instr} {base : Byte} {arg : Operand}
    (rule : exec i s = launch (asAxis arg) true (fun ax => rawStage base ax fun raw => complete (raw.signExtend 32)) s)
    (sample : sampleBase s.cfg i = some base) (hc : s.cfg.wf = true) (ready : s.ready = true) (axis : arg.toNat < 3)
    (hin : s.inputs = .answer a :: rest) (ok : a.ok = true) :
    exec i s = .next ((s.counted a.b0 a.b1).done s.regs 0 ((assemble a.b0 a.b1).signExtend 32)
      [.readBurst (base + BitVec.ofNat 8 (2 * arg.toNat))] rest) := by
  obtain ⟨ax, named, index⟩ := asAxis_of_lt axis
  obtain ⟨low, high⟩ := sampleBase_draws sample ax
  rw [← index]
  exact exec_ends rule named ready hin (rawStage_ends hc low high ok (complete_ends _))

/-- Settles O32: both sensors have the one rule. -/
theorem rawReadsComplete : Obligations.RawReadsComplete := by
  unfold Obligations.RawReadsComplete
  intro p hp s arg a1 rest hc ready axis hin ok
  dsimp only
  rw [← assemble_signExtend]
  have completes {i : Instr} {base : Byte} rule sample :=
    rawRead_completes (i := i) (base := base) rule sample hc ready axis hin ok
  rw [State.counted_eq hc] at completes
  simp only [List.mem_cons, List.not_mem_nil, or_false] at hp
  rcases hp with rfl | rfl <;> exact completes rfl rfl

/-! ### Programs that count nothing -/

/-- Whatever the device replies, the program comes to no `sat_inc` of a counter. -/
def Prog.CountsNothing : Prog → Prop
  | .finish _ _ => True
  | .setReady _ p => p.CountsNothing
  | .bump _ _ => False
  | .xfer _ k => ∀ r, (k r).CountsNothing

/-- Such a program leaves both counters as they were. -/
theorem Prog.CountsNothing.run {p : Prog} (h : p.CountsNothing) (s : State) :
    (p.run s).cntAllOnes = s.cntAllOnes ∧ (p.run s).cntOther = s.cntOther := by
  induction p generalizing s with
  | finish st d => exact ⟨rfl, rfl⟩
  | setReady b p ih => exact ih h (s.setReady b)
  | bump k p ih => exact h.elim
  | xfer op k ih =>
    rcases s.answer_or_wait with ⟨a, rest, hi⟩ | hw
    · rw [run_xfer_answer op k s a rest hi]
      exact ih _ (h _) (s.transact op a)
    · rw [run_xfer_wait op k s hw]
      exact ⟨rfl, rfl⟩

section
variable {c : Prop} [Decidable c] {p q : Prog} {f : Field} {r v : Byte} {fs : List (Field × Byte)}

theorem finish_countsNothing (st : Status) (d : Word) : (Prog.finish st d).CountsNothing := trivial

theorem setReady_countsNothing {b : Bool} (next : p.CountsNothing) : (Prog.setReady b p).CountsNothing := next

theorem ite_countsNothing (hp : p.CountsNothing) (hq : q.CountsNothing) : (if c then p else q).CountsNothing := by
  split
  · exact hp
  · exact hq

theorem readReg_countsNothing {k : Byte → Prog} (next : ∀ b, (k b).CountsNothing) : (readReg r k).CountsNothing :=
  fun _ => ite_countsNothing (next _) (finish_countsNothing _ _)

theorem readField_countsNothing {k : Byte → Prog} (next : ∀ b, (k b).CountsNothing) : (readField f k).CountsNothing :=
  readReg_countsNothing fun _ => next _

theorem readBool_countsNothing {k : Bool → Prog} (next : ∀ b, (k b).CountsNothing) : (readBool f k).CountsNothing :=
  readReg_countsNothing fun _ => next _

theorem writeReg_countsNothing (next : p.CountsNothing) : (writeReg r v p).CountsNothing :=
  fun _ => ite_countsNothing next (finish_countsNothing _ _)

theorem updateFields_countsNothing (next : p.CountsNothing) : (updateFields r fs p).CountsNothing :=
  readReg_countsNothing fun _ => writeReg_countsNothing next

theorem reportRate_countsNothing (dHz : Option Nat) : (reportRate dHz).CountsNothing := by
  cases dHz <;> exact finish_countsNothing _ _

theorem onOperand_countsNothing {α : Type} {o : Option α} {k : α → Prog} (rule : ∀ v, (k v).CountsNothing) :
    (onOperand o k).CountsNothing := by
  cases o with
  | none => exact finish_countsNothing _ _
  | some v => exact rule v

end

/-- Every command without a raw-sample stage counts nothing (R235). -/
theorem progOf_countsNothing {i : Instr} {s : State} (no_sample : sampleBase s.cfg i = none) :
    (progOf i s).CountsNothing := by
  have done {st : Status} {d : Word} : (Prog.finish st d).CountsNothing := finish_countsNothing _ _
  have update {r : Byte} {fs : List (Field × Byte)} : (updateFields r fs (complete 0)).CountsNothing :=
    updateFields_countsNothing done
  cases i with
  | readXl a | readG a | readRawXl a | readRawG a => cases no_sample
  | init a =>
    exact onOperand_countsNothing fun _ => setReady_countsNothing (readReg_countsNothing fun _ => ite_countsNothing
      (updateFields_countsNothing (setReady_countsNothing done)) done)
  | setXlRange a =>
    exact onOperand_countsNothing fun _ => ite_countsNothing (readField_countsNothing fun _ => update) update
  | setXlOdr a =>
    exact onOperand_countsNothing fun _ => ite_countsNothing (readBool_countsNothing fun _ => update) update
  | setXlEn a | setGEn a =>
    exact onOperand_countsNothing fun _ => ite_countsNothing
      (readReg_countsNothing fun _ => ite_countsNothing (writeReg_countsNothing done) done) update
  | setGRange a | setGOdr a | setXlHp a | setXlFsmode a | setGHp a | setBdu a | setEmb a =>
    exact onOperand_countsNothing fun _ => update
  | getXlOdr a =>
    rw [progOf, getXlOdrProg_eq]
    exact onOperand_countsNothing fun _ => readField_countsNothing fun _ => reportRate_countsNothing _
  | getGOdr a =>
    rw [progOf, getGOdrProg_eq]
    exact onOperand_countsNothing fun _ => readField_countsNothing fun _ => reportRate_countsNothing _
  | getXlHp a | getXlFsmode a | getGHp a | getBdu a | getEmb a =>
    exact onOperand_countsNothing fun _ => readBool_countsNothing fun _ => done
  | getXlEn a | getGEn a => exact onOperand_countsNothing fun _ => readField_countsNothing fun _ => done
  | getGRange a | getDrdy a => exact onOperand_countsNothing fun _ => readReg_countsNothing fun _ => done
  | getXlRange a =>
    exact onOperand_countsNothing fun _ => readField_countsNothing fun _ => readField_countsNothing fun _ => done
  | getAllones a | getOtherfail a => exact onOperand_countsNothing fun _ => done

/-! ### The counters and the raw-sample stage -/

/-- A raw-sample stage past dispatch, of an operand that names an axis. -/
theorem onOperand_rawStage {a : Operand} {base : Byte} {k : Axis → Sample → Prog}
    (axis : OperandClass.axis.accepts a = true) (quiet : ∀ ax x, (k ax x).CountsNothing) :
    ∃ ax k', onOperand (asAxis a) (fun ax => rawStage base ax (k ax)) = rawStage base ax k' ∧
      ∀ x, (k' x).CountsNothing := by
  obtain ⟨ax, named⟩ := Option.isSome_iff_exists.1 ((asAxis_isSome a).trans axis)
  rw [named]
  exact ⟨ax, k ax, rfl, quiet ax⟩

/-- A sample command is one raw-sample stage, and counts nothing after it (R215, R216, R233, R234). -/
theorem progOf_eq_rawStage {i : Instr} {s : State} {base : Byte} (sample : sampleBase s.cfg i = some base)
    (valid : i.wf = true) :
    ∃ ax k, progOf i s = rawStage base ax k ∧ ∀ x, (k x).CountsNothing := by
  have done {d : Word} : (complete d).CountsNothing := finish_countsNothing _ _
  cases i with
  | readXl a =>
    cases sample
    exact onOperand_rawStage valid fun _ _ => readField_countsNothing fun _ => readField_countsNothing fun _ => done
  | readG a =>
    cases sample
    exact onOperand_rawStage valid fun _ _ => readReg_countsNothing fun _ => done
  | readRawXl a | readRawG a =>
    cases sample
    exact onOperand_rawStage valid fun _ _ => done
  | _ => cases sample

/-- The counters after a raw-sample stage whose burst is answered: the draws decide which of them, if any, is counted
(R232). -/
theorem rawStage_run_counters {s : State} {a : Answer} {rest : List Input} {base : Byte} {ax : Axis} {k : Sample → Prog}
    (hc : s.cfg.wf = true) (low : sampleAddr base ax ∈ s.cfg.drawAddrs)
    (high : sampleAddr base ax + 1 ∈ s.cfg.drawAddrs) (quiet : ∀ x, (k x).CountsNothing)
    (hin : s.inputs = .answer a :: rest) :
    ((rawStage base ax k).run s).cntAllOnes =
      (if a.ok = true ∧ a.b0 = 0xFF ∧ a.b1 = 0xFF then satInc s.cfg s.cntAllOnes else s.cntAllOnes) ∧
    ((rawStage base ax k).run s).cntOther = (if a.ok = true then s.cntOther else satInc s.cfg s.cntOther) := by
  rw [rawStage, Prog.run_xfer_answer _ _ _ a rest hin, reply_burst_draw hc low high]
  dsimp only
  by_cases ok : a.ok = true
  · by_cases ones : a.b0 = 0xFF ∧ a.b1 = 0xFF
    · simpa [ok, ones] using (quiet _).run ((s.transact _ a).bump .allOnes)
    · rw [if_pos ok, if_neg ones, if_neg fun counted => ones counted.2, if_pos ok]
      exact (quiet _).run (s.transact _ a)
  · simp [ok, raise]

/-- Below its greatest value a counter goes up by one (R232). -/
theorem satInc_of_lt {c : Cfg} (hc : c.wf = true) {v : Word} (below : v.toNat < 2 ^ c.cntWidth - 1) :
    satInc c v = v + 1 :=
  if_neg (mt (eq_cntMax_iff hc v).1 below.ne)

/-- A command with a raw-sample stage is one of those that need `READY` (R90). -/
theorem needsReady_of_sampleBase {c : Cfg} {i : Instr} (sample : sampleBase c i ≠ none) : i.needsReady = true := by
  cases i with
  | readXl a | readG a | readRawXl a | readRawG a => rfl
  | _ => exact absurd rfl sample

/-- A command without a raw-sample stage, and one that dispatch rejects, leaves both counters (R235). -/
theorem exec_counts_nothing {i : Instr} {s t : State} (h : exec i s = .next t)
    (quiet : sampleBase s.cfg i = none ∨ i.wf = false ∨ s.ready = false) :
    t.cntAllOnes = s.cntAllOnes ∧ t.cntOther = s.cntOther := by
  rcases exec_cases h with ⟨-, rfl⟩ | ⟨-, -, -, rfl⟩ | ⟨valid, dispatched, rfl⟩
  · exact ⟨rfl, rfl⟩
  · exact ⟨rfl, rfl⟩
  · have no_sample : sampleBase s.cfg i = none := by
      by_contra sample
      have ready := dispatched (needsReady_of_sampleBase sample)
      simp [sample, valid, ready] at quiet
    exact (progOf_countsNothing no_sample).run s.fresh

/-- Settles O46: the draws of the burst decide which counter goes up. -/
theorem counterLaws : Obligations.CounterLaws := by
  unfold Obligations.CounterLaws
  intro i s t hc hexec
  refine ⟨fun a rest sample valid ready hin ones_below other_below => ?sampled, exec_counts_nothing hexec⟩
  obtain ⟨base, sample⟩ := Option.ne_none_iff_exists'.1 sample
  obtain ⟨ax, k, stage, quiet⟩ := progOf_eq_rawStage sample valid
  obtain ⟨low, high⟩ := sampleBase_draws sample ax
  have counters := rawStage_run_counters (s := s.fresh) hc low high quiet hin
  rw [State.fresh_cfg, State.fresh_cntAllOnes, State.fresh_cntOther, satInc_of_lt hc ones_below,
    satInc_of_lt hc other_below] at counters
  rw [exec_of_dispatched valid fun _ => ready, stage] at hexec
  cases hexec
  obtain ⟨all_ones, other⟩ := counters
  rw [all_ones, other]
  refine ⟨fun ok b0 b1 => ?all_ones, fun failed => ?failed_burst, fun ok differs => ?other_bytes⟩
  case all_ones => simp [ok, b0, b1]
  case failed_burst => simp [failed]
  case other_bytes =>
    have not_ones : ¬(a.ok = true ∧ a.b0 = 0xFF ∧ a.b1 = 0xFF) := fun ⟨_, b0, b1⟩ => differs.elim (· b0) (· b1)
    rw [if_neg not_ones, if_pos ok]
    exact ⟨rfl, rfl⟩

end Machine
end Sys2Proof
end

section
/-! The system, status and counter commands completed (45_system.md R250 to R253): `INIT` and the counter queries run
whatever `READY` is; the identity register and the status register, which are no control registers, are read. -/

namespace Sys2Proof

/-- A byte zero-extended to a data word keeps its number (R10). -/
theorem byteWord_eq_ofNat (b : Byte) : byteWord b = BitVec.ofNat 32 b.toNat := (BitVec.ofNat_toNat 32 b).symm

theorem Cfg.regStatus_drawn (c : Cfg) : c.regStatus ∈ c.drawAddrs := by simp [drawAddrs]

namespace Machine

/-! ### Helpers that the system commands alone use -/

section
variable {s t : State} {regs : List Host.Cell} {ops : List TxOp} {inputs rest : List Input} {a : Answer}

/-- A command that needs no `READY`, of an operand that names a setting, ends as its program does (R89, R90). -/
theorem exec_ends_of_not_needsReady {i : Instr} {α : Type} {o : Option α} {v : α} {k : α → Prog}
    (rule : exec i s = launch o false k s) (named : o = some v) (hin : s.inputs = inputs)
    (h : (k v).Ends s s.regs [] inputs t) : exec i s = .next t := by
  have ran : (k v).run s.fresh = t := by
    rw [State.fresh_eq_midway, hin]
    exact h []
  rw [rule, named, ← ran]
  rfl

/-- A write of `READY` goes on from the state with the new `READY` (R25). -/
theorem setReady_ends {b : Bool} {p : Prog} (next : p.Ends (s.setReady b) regs ops inputs t) :
    (Prog.setReady b p).Ends s regs ops inputs t :=
  fun temps => next temps

/-- Any completion ends the command with its status and its data word (R13). -/
theorem finish_ends (st : Status) (d : Word) :
    (Prog.finish st d).Ends s regs ops rest (s.done regs st.code d ops rest) :=
  fun _ => rfl

/-- A successful `ReadReg` of the identity register goes on with the device's identity (R63, R53 item 4). -/
theorem readReg_identity_ends {k : Byte → Prog} (ok : a.ok = true)
    (next : (k s.identity).Ends s regs (ops ++ [.readOne s.cfg.regWhoAmI]) rest t) :
    (readReg s.cfg.regWhoAmI k).Ends s regs ops (.answer a :: rest) t := by
  intro temps
  have identity := (s.midway regs ops temps (.answer a :: rest)).devByte_identity a.b0
  rw [readReg_run_ok rfl ok, State.midway_transact]
  exact identity ▸ next _

/-- A successful `ReadReg` of a data or status register goes on with the byte drawn (R63, R53 item 5). -/
theorem readReg_draw_ends {r : Byte} {k : Byte → Prog} (hc : s.cfg.wf = true) (hr : r ∈ s.cfg.drawAddrs)
    (ok : a.ok = true) (next : (k a.b0).Ends s regs (ops ++ [.readOne r]) rest t) :
    (readReg r k).Ends s regs ops (.answer a :: rest) t := by
  intro temps
  rw [readReg_run_ok rfl ok, State.devByte_draw (s := s.midway _ _ _ _) hc hr, State.midway_transact]
  exact next _

end

/-! ### The commands -/

/-- Settles O34: `READY` is cleared and the identity read; the comparison decides whether the update of `REG_CTRL_C`
follows. -/
theorem initCompletes : Obligations.InitCompletes := by
  unfold Obligations.InitCompletes
  intro s a1 a2 a3 rest hc ok1 ok2 ok3
  dsimp only
  rw [← byteWord_eq_ofNat]
  refine ⟨fun hin same => ?verified, fun hin differs => ?mismatch⟩
  case verified =>
    refine exec_ends_of_not_needsReady rfl rfl hin (setReady_ends (readReg_identity_ends ok1 ?_))
    exact ite_ends_pos (s := s.setReady false) same
      (updateFields_ends hc s.cfg.regCtrlC_control ok2 ok3 (setReady_ends (complete_ends _)))
  case mismatch =>
    refine exec_ends_of_not_needsReady rfl rfl hin (setReady_ends (readReg_identity_ends ok1 ?_))
    exact ite_ends_neg differs (finish_ends _ _)

/-- Settles O35: one read of a register whose byte is a draw. -/
theorem statusQueryCompletes : Obligations.StatusQueryCompletes := by
  unfold Obligations.StatusQueryCompletes
  intro s a1 rest hc ready hin ok1
  rw [← byteWord_eq_ofNat]
  exact exec_ends rfl rfl ready hin (readReg_draw_ends hc s.cfg.regStatus_drawn ok1 (complete_ends _))

/-- Settles O36: both programs complete at once. -/
theorem counterQueriesComplete : Obligations.CounterQueriesComplete := by
  unfold Obligations.CounterQueriesComplete
  intro s
  exact ⟨exec_ends_of_not_needsReady rfl rfl rfl (complete_ends _),
    exec_ends_of_not_needsReady rfl rfl rfl (complete_ends _)⟩

end Machine
end Sys2Proof
end

section
/-! How a command meets a failing transaction (60_exceptions.md R270 to R275): it ends there, and what it has written by then
is what it writes when it succeeds, since its only write is its last transaction. -/

namespace Sys2Proof.Machine

/-! ### Every command answers -/

/-- No command stops the machine. -/
theorem exec_next (i : Instr) (s : State) : ∃ t, exec i s = .next t := by
  obtain ⟨α, o, k, hexec, -⟩ := exec_eq_launch i s
  rw [hexec]
  exact launch_next o i.needsReady k s

/-- Settles O13: how any command stands, read without `READY`. -/
theorem everyCommandAnswersNextState : Obligations.EveryCommandAnswersNextState := by
  unfold Obligations.EveryCommandAnswersNextState
  intro i s
  obtain ⟨t, hexec⟩ := exec_next i s
  refine ⟨t, hexec, ?_⟩
  rcases exec_stands hexec with ⟨q, pending, -, busy, res, data⟩ | ⟨st, pending, temps, idle, res, -⟩
  · exact .inl ⟨by simp [pending], busy, res, data⟩
  · exact .inr ⟨pending, temps, idle, res ▸ st.code_toNat_le⟩

/-! ### Programs that stop at a failure and write last -/

/-- What a command goes on with after a failing transaction: it ends with `ERR_TRANSPORT`, a failed sample burst counted
first (R273, R232). -/
def TxOp.onFailure : TxOp → Prog
  | .readBurst _ => .bump .other (raise .errTransport)
  | .readOne _ | .writeOne _ _ => raise .errTransport

/-- With no further transaction the program completes with `OK`. -/
def Prog.Succeeds : Prog → Prop
  | .finish st _ => st = .ok
  | .setReady _ p => p.Succeeds
  | .bump _ p => p.Succeeds
  | .xfer _ _ => False

/-- A failing transaction ends the program at once (R273); a write is to a register in `W`, and once it has succeeded the
program completes with `OK`. -/
def Prog.FailSafe (W : Byte → Prop) : Prog → Prop
  | .finish _ _ => True
  | .setReady _ p => p.FailSafe W
  | .bump _ p => p.FailSafe W
  | .xfer op k =>
    (∀ r, r.ok = false → k r = op.onFailure) ∧ (∀ r, (k r).FailSafe W) ∧
    ∀ a v, op = .writeOne a v → W a ∧ ∀ r, r.ok = true → (k r).Succeeds

section
variable {W : Byte → Prop} {c : Prop} [Decidable c] {p q : Prog} {f : Field} {r v : Byte} {fs : List (Field × Byte)}

theorem finish_failSafe (st : Status) (d : Word) : (Prog.finish st d).FailSafe W := trivial

theorem setReady_failSafe {b : Bool} (next : p.FailSafe W) : (Prog.setReady b p).FailSafe W := next

theorem Prog.Succeeds.failSafe {p : Prog} (h : p.Succeeds) : p.FailSafe W := by
  induction p with
  | finish st d => trivial
  | setReady b p ih => exact ih h
  | bump k p ih => exact ih h
  | xfer op k => exact h.elim

theorem ite_failSafe (hp : p.FailSafe W) (hq : q.FailSafe W) : (if c then p else q).FailSafe W := by
  split
  · exact hp
  · exact hq

theorem readReg_failSafe {k : Byte → Prog} (next : ∀ b, (k b).FailSafe W) : (readReg r k).FailSafe W :=
  ⟨fun _ failed => by simp [failed, TxOp.onFailure], fun _ => ite_failSafe (next _) (finish_failSafe _ _), nofun⟩

theorem readField_failSafe {k : Byte → Prog} (next : ∀ b, (k b).FailSafe W) : (readField f k).FailSafe W :=
  readReg_failSafe fun _ => next _

theorem readBool_failSafe {k : Bool → Prog} (next : ∀ b, (k b).FailSafe W) : (readBool f k).FailSafe W :=
  readReg_failSafe fun _ => next _

theorem rawStage_failSafe {base : Byte} {ax : Axis} {k : Sample → Prog} (next : ∀ x, (k x).FailSafe W) :
    (rawStage base ax k).FailSafe W :=
  ⟨fun _ failed => by simp [failed, TxOp.onFailure],
    fun _ => ite_failSafe (ite_failSafe (next _) (next _)) trivial, nofun⟩

theorem writeReg_failSafe (own : W r) (last : p.Succeeds) : (writeReg r v p).FailSafe W := by
  refine ⟨fun _ failed => by simp [failed, TxOp.onFailure],
    fun _ => ite_failSafe last.failSafe (finish_failSafe _ _), fun a b same => ?_⟩
  cases same
  exact ⟨own, fun reply ok => by simpa [ok] using last⟩

theorem updateFields_failSafe (own : W r) (last : p.Succeeds) : (updateFields r fs p).FailSafe W :=
  readReg_failSafe fun _ => writeReg_failSafe own last

theorem reportRate_failSafe (dHz : Option Nat) : (reportRate dHz).FailSafe W := by
  cases dHz <;> exact finish_failSafe _ _

theorem onOperand_failSafe {α : Type} {o : Option α} {k : α → Prog} (rule : ∀ v, (k v).FailSafe W) :
    (onOperand o k).FailSafe W := by
  cases o with
  | none => exact finish_failSafe _ _
  | some v => exact rule v

end

/-- The register that a command's own fields lie in. Which it is, a configuration that is not well formed leaves open
(R97). -/
def OwnRegister (c : Cfg) (i : Instr) (a : Byte) : Prop := c.wf = true → ∃ f ∈ ownFields c i, f.reg = a

/-- Every command stops at a failure, and the register it writes, last, is that of its own fields. -/
theorem progOf_failSafe (i : Instr) (s : State) : (progOf i s).FailSafe (OwnRegister s.cfg i) := by
  have done {st : Status} {d : Word} : (Prog.finish st d).FailSafe (OwnRegister s.cfg i) := finish_failSafe _ _
  have update {r : Byte} {fs : List (Field × Byte)} (own : OwnRegister s.cfg i r) :
      (updateFields r fs (complete 0)).FailSafe (OwnRegister s.cfg i) := updateFields_failSafe own rfl
  cases i with
  | init a =>
    have own : OwnRegister s.cfg (.init a) s.cfg.regCtrlC := fun hc => by simp [ownFields, Cfg.wf_regs hc]
    exact onOperand_failSafe fun _ => setReady_failSafe (readReg_failSafe fun _ => ite_failSafe
      (updateFields_failSafe own rfl) done)
  | setXlRange a =>
    have own : OwnRegister s.cfg (.setXlRange a) s.cfg.regCtrlXl := fun hc => by simp [ownFields, Cfg.wf_regs hc]
    exact onOperand_failSafe fun _ => ite_failSafe (readField_failSafe fun _ => update own) (update own)
  | setXlOdr a =>
    have own : OwnRegister s.cfg (.setXlOdr a) s.cfg.regCtrlXl := fun hc => by simp [ownFields, Cfg.wf_regs hc]
    exact onOperand_failSafe fun _ => ite_failSafe (readBool_failSafe fun _ => update own) (update own)
  | setXlEn a =>
    have own : OwnRegister s.cfg (.setXlEn a) s.cfg.regCtrlXl := fun hc => by simp [ownFields, Cfg.wf_regs hc]
    exact onOperand_failSafe fun _ => ite_failSafe
      (readReg_failSafe fun _ => ite_failSafe (writeReg_failSafe own rfl) done) (update own)
  | setGEn a =>
    have own : OwnRegister s.cfg (.setGEn a) s.cfg.regCtrlG := fun hc => by simp [ownFields, Cfg.wf_regs hc]
    exact onOperand_failSafe fun _ => ite_failSafe
      (readReg_failSafe fun _ => ite_failSafe (writeReg_failSafe own rfl) done) (update own)
  | setGRange a | setGOdr a =>
    exact onOperand_failSafe fun _ => update fun hc => by simp [ownFields, Cfg.wf_regs hc]
  | setXlHp a | setXlFsmode a | setGHp a | setBdu a | setEmb a =>
    exact onOperand_failSafe fun _ => update fun _ => ⟨_, List.mem_singleton_self _, rfl⟩
  | getXlOdr a =>
    rw [progOf, getXlOdrProg_eq]
    exact onOperand_failSafe fun _ => readField_failSafe fun _ => reportRate_failSafe _
  | getGOdr a =>
    rw [progOf, getGOdrProg_eq]
    exact onOperand_failSafe fun _ => readField_failSafe fun _ => reportRate_failSafe _
  | getXlHp a | getXlFsmode a | getGHp a | getBdu a | getEmb a =>
    exact onOperand_failSafe fun _ => readBool_failSafe fun _ => done
  | getXlEn a | getGEn a => exact onOperand_failSafe fun _ => readField_failSafe fun _ => done
  | getGRange a | getDrdy a => exact onOperand_failSafe fun _ => readReg_failSafe fun _ => done
  | getXlRange a => exact onOperand_failSafe fun _ => readField_failSafe fun _ => readField_failSafe fun _ => done
  | readXl a =>
    exact onOperand_failSafe fun _ => rawStage_failSafe fun _ => readField_failSafe fun _ =>
      readField_failSafe fun _ => done
  | readG a => exact onOperand_failSafe fun _ => rawStage_failSafe fun _ => readReg_failSafe fun _ => done
  | readRawXl a | readRawG a => exact onOperand_failSafe fun _ => rawStage_failSafe fun _ => done
  | getAllones a | getOtherfail a => exact onOperand_failSafe fun _ => done

/-! ### The end at a failing transaction -/

/-- What a program that stops at a failure goes on with when the transaction it stands at fails. -/
theorem Prog.FailSafe.after_failed {W : Byte → Prop} {p : Prog} {rs : List Reply} {op : TxOp} {r : Reply}
    (h : p.FailSafe W) (waits : (p.after rs).request = some op) (failed : r.ok = false) :
    p.after (rs ++ [r]) = op.onFailure := by
  induction p generalizing rs with
  | finish st d => cases rs <;> cases waits
  | setReady b p ih =>
    rw [after_setReady_append]
    exact ih h (by simpa using waits)
  | bump k p ih =>
    rw [after_bump_append]
    exact ih h (by simpa using waits)
  | xfer op' k ih =>
    obtain ⟨stops, goes_on, -⟩ := h
    cases rs with
    | nil =>
      obtain rfl : op' = op := Option.some.inj waits
      exact (after_nil _).trans (stops r failed)
    | cons x rs => exact ih x (goes_on x) waits

/-- A command that waits stands at the transaction its program comes to after the replies it has had. -/
theorem exec_waits_at {i : Instr} {s w : State} {q : Request} (h : exec i s = .next w) (waits : w.pending = some q) :
    ((progOf i w).after w.temps).request = some q.op := by
  obtain ⟨-, -, cfg⟩ := exec_keeps h
  obtain ⟨-, -, rfl⟩ := exec_dispatched_of_pending h (by simp [waits])
  obtain ⟨-, rs, temps, request, -⟩ := Prog.run_pending waits
  rw [State.fresh_temps, List.nil_append] at temps
  rw [temps, progOf_after_request_congr cfg, request]

/-- Settles O37: the program goes on from where it waits with nothing but the end. -/
theorem failedTransactionEndsCommand : Obligations.FailedTransactionEndsCommand := by
  unfold Obligations.FailedTransactionEndsCommand
  intro i s w oks q f rest _ failed hexec waits
  refine (exec_resumes (s := s) f rest hexec waits).trans ?_
  rw [(progOf_failSafe i w).after_failed (exec_waits_at hexec waits) (by simpa using failed)]
  obtain ⟨dev, op⟩ := q
  cases op with
  | readOne r => rfl
  | readBurst r => rfl
  | writeOne r v =>
    rw [State.answered, failed]
    rfl

/-! ### The registers a command can leave -/

/-- Over some answers the program, run from `s`, completes with `OK` and leaves the registers `regs`. -/
def Prog.CanLeave (p : Prog) (s : State) (regs : List Host.Cell) : Prop :=
  ∃ answers : List Answer,
    let u := p.run (s.withInputs (answers.map .answer))
    u.pending = none ∧ u.res = 0 ∧ u.regs = regs

/-- A program that succeeds leaves the registers alone. -/
theorem Prog.Succeeds.run {p : Prog} (h : p.Succeeds) (s : State) :
    (p.run s).pending = none ∧ (p.run s).res = 0 ∧ (p.run s).regs = s.regs := by
  induction p generalizing s with
  | finish st d =>
    obtain rfl : st = .ok := h
    exact ⟨rfl, rfl, rfl⟩
  | setReady b p ih => exact ih h (s.setReady b)
  | bump k p ih => simpa using ih h (s.bump k)
  | xfer op k => exact h.elim

/-- What is left after one answer can be left. -/
theorem Prog.CanLeave.xfer {op : TxOp} {k : Reply → Prog} {s : State} {a : Answer} {regs : List Host.Cell}
    (h : (k (s.reply op a)).CanLeave (s.transact op a) regs) : (Prog.xfer op k).CanLeave s regs := by
  obtain ⟨answers, left⟩ := h
  exact ⟨a :: answers, left⟩

/-- After a failure nothing more is written. -/
theorem TxOp.onFailure_run_regs (op : TxOp) (s : State) : (op.onFailure.run s).regs = s.regs := by cases op <;> rfl

/-- A program that stops at a failure and writes last leaves the registers as they were, or as its one write
leaves them, which is how it can leave them when it succeeds. -/
theorem Prog.FailSafe.run_regs {W : Byte → Prop} {p : Prog} (h : p.FailSafe W) (s : State) :
    (p.run s).regs = s.regs ∨
    ∃ r v, W r ∧ (p.run s).regs = s.regsWith r v ∧ p.CanLeave s (s.regsWith r v) := by
  induction p generalizing s with
  | finish st d => exact .inl rfl
  | setReady b p ih => exact ih h (s.setReady b)
  | bump k p ih => cases k <;> exact ih h (s.bump _)
  | xfer op k ih =>
    obtain ⟨stops, goes_on, writes⟩ := h
    rcases s.answer_or_wait with ⟨a, rest, hi⟩ | hw
    · rw [run_xfer_answer op k s a rest hi]
      cases op with
      | readOne r | readBurst r =>
        exact (ih _ (goes_on _) (s.transact _ a)).imp id fun ⟨r, v, own, left, can⟩ => ⟨r, v, own, left, can.xfer⟩
      | writeOne r v =>
        obtain ⟨own, succeeds⟩ := writes r v rfl
        have can : (Prog.xfer (.writeOne r v) k).CanLeave s (s.regsWith r v) :=
          CanLeave.xfer (a := ⟨true, 0, 0, false⟩) ⟨[], (succeeds _ rfl).run _⟩
        cases ok : a.ok with
        | true =>
          obtain ⟨-, -, kept⟩ := (succeeds (s.reply (.writeOne r v) a) (by simp [ok])).run (s.transact (.writeOne r v) a)
          rw [State.transact_regs, ok] at kept
          exact .inr ⟨r, v, own, kept, can⟩
        | false =>
          rw [stops _ (by simp [ok]), TxOp.onFailure_run_regs, State.transact_regs, ok]
          cases a.landed with
          | true => exact .inr ⟨r, v, own, rfl, can⟩
          | false => exact .inl rfl
    · rw [run_xfer_wait op k s hw]
      exact .inl rfl

/-- However a command goes, it leaves the registers as they were, or with its one write to its own register done, as it
leaves them when it completes with `OK` on some answers (R275). -/
theorem exec_regs {i : Instr} {s t : State} (h : exec i s = .next t) :
    t.regs = s.regs ∨
    ∃ r v, OwnRegister s.cfg i r ∧ t.regs = s.regsWith r v ∧
      ∃ (answers : List Answer) (u : State), exec i (s.withInputs (answers.map .answer)) = .next u ∧ u.pending = none ∧
        u.res = 0 ∧ u.regs = s.regsWith r v := by
  rcases exec_cases h with ⟨-, rfl⟩ | ⟨-, -, -, rfl⟩ | ⟨valid, dispatched, rfl⟩
  · exact .inl rfl
  · exact .inl rfl
  · refine ((progOf_failSafe i s).run_regs s.fresh).imp id fun ⟨r, v, own, left, answers, ends⟩ => ?_
    exact ⟨r, v, own, left, answers, _, exec_of_dispatched (s := s.withInputs _) valid dispatched, ends⟩

/-- Settles O38: the write that changed the registers is that of a successful run. -/
theorem commandLeavesOldOrFinalRegisters : Obligations.CommandLeavesOldOrFinalRegisters := by
  unfold Obligations.CommandLeavesOldOrFinalRegisters
  intro i s t _ hexec
  rcases exec_regs hexec with kept | ⟨r, v, -, left, answers, u, ran, idle, ok, final⟩
  · exact .inl kept
  · exact .inr ⟨answers, u, ran, idle, ok, final.trans left.symm⟩

/-! ### The frame of a command -/

/-- A command leaves the host port's reply (R272). -/
theorem exec_hostReply {i : Instr} {s t : State} (h : exec i s = .next t) : t.hostReply = s.hostReply := by
  rcases exec_cases h with ⟨-, rfl⟩ | ⟨-, -, -, rfl⟩ | ⟨-, -, rfl⟩
  · rfl
  · rfl
  · obtain ⟨-, -, -, hostReply⟩ := Prog.run_keeps (progOf i s) s.fresh
    exact hostReply

/-- Every command but `INIT` leaves `READY` (R25). -/
theorem exec_ready {i : Instr} {s t : State} (h : exec i s = .next t) (not_init : ∀ a, i ≠ .init a) :
    t.ready = s.ready := by
  rcases exec_stands h with ⟨q, -, waits, -⟩ | ⟨st, -, -, -, -, reports⟩
  · exact waits.ready_kept (not_init 0)
  · exact reports.ready_kept (not_init 0)

/-- A command that waits has reported nothing yet (R54). -/
theorem exec_reports_at_completion {i : Instr} {s t : State} (h : exec i s = .next t) (waits : t.pending ≠ none) :
    t.busy = s.busy ∧ t.res = s.res ∧ t.data = s.data := by
  rcases exec_stands h with ⟨q, -, -, kept⟩ | ⟨st, idle, -⟩
  · exact kept
  · exact absurd idle waits

/-- Settles O40: of the device only a command's own register can differ, and the engine's items by what a command can
report and count. -/
theorem commandFrame : Obligations.CommandFrame := by
  unfold Obligations.CommandFrame
  intro i s t hc hexec
  obtain ⟨cmd, identity, cfg⟩ := exec_keeps hexec
  refine ⟨cmd, identity, cfg, exec_hostReply hexec, fun a foreign => ?registers, fun no_fields => ?memory,
    exec_ready hexec, fun no_sample => exec_counts_nothing hexec (.inl no_sample), exec_reports_at_completion hexec⟩
  case registers =>
    rcases exec_regs hexec with kept | ⟨r, v, own, left, -⟩
    · rw [State.reg, kept, State.reg]
    · obtain ⟨f, hf, rfl⟩ := own hc
      rw [State.reg, left, State.regsWith]
      exact Memory.read_write_other _ _ _ _ fun e => foreign f hf (BitVec.eq_of_toNat_eq e)
  case memory =>
    rcases exec_regs hexec with kept | ⟨r, v, own, -⟩
    · exact kept
    · obtain ⟨f, hf, -⟩ := own hc
      simp [no_fields] at hf

end Sys2Proof.Machine
end

section
/-! What an earlier command left in the engine (60_exceptions.md R279, 10_state.md R28, R29): its word, its result and the
host's last reply are carried along unread until a completion replaces the result, and its temporaries and requests are gone
before the next command's first transaction. -/

namespace Sys2Proof.Machine

/-- The state with another command word, data word, status and host reply left in it. -/
def State.withLeft (cmd data : Word) (res : BitVec 4) (h : Option Word) (s : State) : State :=
  { s with cmd := cmd, data := data, res := res, hostReply := h }

/-- The state a command has come to, started with another command word, data word, status and host reply left in it: the
data word and the status are still those left while it waits. -/
def State.carrying (cmd data : Word) (res : BitVec 4) (h : Option Word) (t : State) : State :=
  { t with
    cmd := cmd, hostReply := h
    res := if t.pending = none then t.res else res
    data := if t.pending = none then t.data else data }

@[simp] theorem State.withLeft_ready (cmd data : Word) (res : BitVec 4) (h : Option Word) (s : State) :
    (s.withLeft cmd data res h).ready = s.ready := rfl

section
variable (cmd data : Word) (res : BitVec 4) (h : Option Word)

/-- A program carries along what was left, and looks at none of it. -/
theorem Prog.run_withLeft (p : Prog) (s : State) :
    p.run (s.withLeft cmd data res h) = (p.run s).carrying cmd data res h := by
  induction p generalizing s with
  | finish st d => rfl
  | setReady b p ih => exact ih (s.setReady b)
  | bump k p ih => cases k with
    | allOnes => exact ih (s.bump .allOnes)
    | other => exact ih (s.bump .other)
  | xfer op k ih =>
    rcases s.answer_or_wait with ⟨a, rest, hi⟩ | hw
    · have reply : (s.withLeft cmd data res h).reply op a = s.reply op a := State.reply_congr s _ rfl rfl rfl op a
      rw [run_xfer_answer op k s a rest hi, run_xfer_answer op k (s.withLeft cmd data res h) a rest hi, reply, ← ih]
      cases op <;> rfl
    · rw [run_xfer_wait op k s hw, run_xfer_wait op k (s.withLeft cmd data res h) hw]
      rfl

/-- A command carries along what was left, through dispatch too. -/
theorem exec_withLeft {i : Instr} {s t : State} (hexec : exec i s = .next t) :
    exec i (s.withLeft cmd data res h) = .next (t.carrying cmd data res h) := by
  rw [exec_eq_dispatch] at hexec ⊢
  rw [State.withLeft_ready]
  split_ifs at hexec ⊢
  · cases hexec
    rfl
  · cases hexec
    rfl
  · cases hexec
    exact congrArg Host.Outcome.next (Prog.run_withLeft cmd data res h (progOf i s) s.fresh)

end

/-- A command drops the outstanding transaction, the temporaries and the requests of an earlier one (R29): states that
differ only in those are one to it. -/
theorem exec_eq_of_fresh_eq (i : Instr) {s s' : State} (same : s.fresh = s'.fresh) : exec i s = exec i s' := by
  have exec_fresh (s : State) : exec i s.fresh = exec i s := by
    rw [exec_eq_dispatch, exec_eq_dispatch]
    rfl
  rw [← exec_fresh s, same, exec_fresh]

/-- Settles O50: dropped items aside, the second run is the first one with what was left carried along. -/
theorem earlierResultAndRequestsDoNotMatter : Obligations.EarlierResultAndRequestsDoNotMatter := by
  unfold Obligations.EarlierResultAndRequestsDoNotMatter
  intro i s t t' cmd data res p rs tx h hexec hexec'
  have carried : exec i (s.withLeft cmd data res h) = .next t' := (exec_eq_of_fresh_eq i rfl).trans hexec'
  exact Host.Outcome.next.inj (carried.symm.trans (exec_withLeft cmd data res h hexec))

end Sys2Proof.Machine
end

section
/-! Engine reset and the other events that are not a command's own (70_reset_and_hazards.md R300 to R303, R310, R319): what a
step leaves of the engine at a reset, at a foreign write of the device, at a stray answer, and while the device does not
answer. -/

namespace Sys2Proof.Machine

/-! ### Steps on the device's events -/

section
variable {s : State} {rest : List Input}

/-- An engine reset is taken, with everything of it in one step (R300). -/
theorem step_engineReset {landed : Bool} (hc : s.cfg.wf = true) (hin : s.inputs = .engineReset landed :: rest) :
    step s = .next (State.engineReset landed { s with inputs := rest }) := by
  rw [step, stepEvent, if_pos hc, hin, ← State.drop_eq hin]

/-- A foreign write is taken, and puts its byte in the register (R310). -/
theorem step_deviceWrite {a v : Byte} (hc : s.cfg.wf = true) (hin : s.inputs = .deviceWrite a v :: rest) :
    step s = .next { s with inputs := rest, regs := s.regsWith a v } := by
  rw [step, stepEvent, if_pos hc, hin]
  simp only [State.drop_eq hin]
  rfl

/-- An answer to no transaction is taken, without effect (log 6). -/
theorem step_stray_answer {a : Answer} (hc : s.cfg.wf = true) (hin : s.inputs = .answer a :: rest)
    (pending : s.pending = none) : step s = .next { s with inputs := rest } := by
  rw [step, stepEvent, if_pos hc, hin, ← State.drop_eq hin]
  simp only [resume, pending]

end

/-! ### The device's registers after a write -/

/-- A register read in registers that differ by one byte written. -/
theorem State.reg_write {s t : State} (canonical : Memory.wf s.regs) {r v : Byte} (h : t.regs = s.regsWith r v) (b : Byte) :
    t.reg b = if b = r then v else s.reg b := by
  obtain ⟨same, others⟩ := State.reg_of_regsWith canonical h
  split_ifs with is_r
  · rw [is_r, same]
  · exact others b is_r

/-! ### Engine reset -/

/-- Settles O1: the reset values are read off both definitions. -/
theorem resetValues : Obligations.ResetValues := by
  unfold Obligations.ResetValues
  have csr : hostLoad State.reset 0xC = 0 := rfl
  exact ⟨fun s landed => by simp, rfl, rfl, rfl, rfl, rfl, rfl, rfl, csr⟩

/-- Settles O4: an idle engine holds the invariant with lawful values in its items, and at reset they are all 0. -/
theorem invariantAtReset : Obligations.InvariantAtReset := by
  unfold Obligations.InvariantAtReset
  have lawful : State.reset.Lawful :=
    { regs_wf := Memory.wf_nil
      status_legal := by decide
      data_zero_on_error := fun _ _ => rfl
      data_byte_on_mismatch := nofun
      counters := ⟨Nat.zero_le _, Nat.zero_le _⟩
      ready_verified := nofun }
  exact lawful.inv_of_idle rfl rfl rfl

section
variable {s : State} {landed : Bool}

/-- An engine reset with a write in flight: its register reads as before, or as the byte in flight if that landed (R303). -/
theorem State.engineReset_reg_of_write {dev : BitVec 7} {r v : Byte} (canonical : Memory.wf s.regs)
    (in_flight : s.pending = some ⟨dev, .writeOne r v⟩) (a : Byte) :
    (s.engineReset landed).reg a = if a = r ∧ landed = true then v else s.reg a := by
  have regs := s.engineReset_regs_some landed _ in_flight
  cases landed with
  | false => simp [reg, regs]
  | true => simpa using State.reg_write canonical regs a

/-- An engine reset with no write in flight: every register reads as before (R302, log 12). -/
theorem State.engineReset_reg_of_no_write (no_write : ∀ dev r v, s.pending ≠ some ⟨dev, .writeOne r v⟩) (a : Byte) :
    (s.engineReset landed).reg a = s.reg a := by
  rcases pending : s.pending with _ | ⟨dev, op⟩
  · rw [reg, s.engineReset_regs_none landed pending, reg]
  · have regs := s.engineReset_regs_some landed _ pending
    cases op with
    | readOne r => rw [reg, regs, regsAfter_readOne, reg]
    | readBurst r => rw [reg, regs, regsAfter_readBurst, reg]
    | writeOne r v => exact absurd pending (no_write dev r v)

end

/-- Settles O2: the engine's items by the reset itself, the device's registers by whether a write is in flight. -/
theorem resetAbandonsCommand : Obligations.ResetAbandonsCommand := by
  unfold Obligations.ResetAbandonsCommand
  intro s landed rest hc canonical hin
  refine ⟨_, step_engineReset hc hin, rfl, rfl, rfl, rfl, rfl, rfl, rfl, rfl, rfl, rfl, rfl, rfl, rfl, fun a => ?_⟩
  split
  · next in_flight => exact State.engineReset_reg_of_write (s := { s with inputs := rest }) canonical in_flight a
  · next no_write => exact State.engineReset_reg_of_no_write (s := { s with inputs := rest }) no_write a

/-! ### Events that leave the engine as it was -/

/-- An idle engine has no transaction outstanding (R24, R54). -/
theorem State.Inv.pending_of_idle {s : State} (inv : s.Inv) (idle : s.busy = false) : s.pending = none := by
  have := inv.busy_iff_pending
  rwa [idle, eq_comm, Option.isSome_eq_false_iff, Option.isNone_iff_eq_none] at this

/-- Settles O58: the two steps as they are. -/
theorem foreignEventsLeaveEngine : Obligations.ForeignEventsLeaveEngine := by
  unfold Obligations.ForeignEventsLeaveEngine
  refine ⟨fun s a v rest hc canonical hin => ?foreign_write, fun s a rest hc inv idle hin => ?stray_answer⟩
  case foreign_write =>
    exact ⟨_, step_deviceWrite hc hin, rfl, Memory.write_byte_wf _ _ _ canonical, State.reg_write canonical rfl⟩
  case stray_answer => exact step_stray_answer hc hin (inv.pending_of_idle idle)

/-! ### A transaction that is not answered -/

/-- An event that can end the engine's wait: the device's answer or an engine reset. -/
def Input.EndsWait (e : Input) : Prop := (∃ a, e = .answer a) ∨ ∃ landed, e = .engineReset landed

/-- From `s` to `t` the engine has stood still: only the device's registers, the inputs to come and what the host has read
may differ. -/
def State.StandsStill (s t : State) : Prop :=
  t = { s with regs := t.regs, inputs := t.inputs, hostReply := t.hostReply }

theorem State.StandsStill.refl (s : State) : s.StandsStill s := rfl

theorem State.StandsStill.trans {s t u : State} (h : s.StandsStill t) (h' : t.StandsStill u) : s.StandsStill u := by
  rw [StandsStill] at h h' ⊢
  rw [h', h]

/-- Any other event leaves a busy engine where it stands, a write to `CMD` among them, and is taken (R51, R54). -/
theorem busy_step {s t : State} (busy : s.busy = true) (kept : ∀ e, s.inputs.head? = some e → ¬e.EndsWait)
    (hstep : step s = .next t) : s.StandsStill t ∧ t.inputs = s.inputs.tail := by
  obtain ⟨-, ⟨hin, rfl⟩ | ⟨a, rest, hin, -⟩ | ⟨width, off, rest, -, -, rfl⟩ | ⟨width, off, v, rest, -, -, -, rfl⟩ |
    ⟨width, v, rest, -, -, idle, -⟩ | ⟨landed, rest, hin, -⟩ | ⟨a, v, rest, -, rfl⟩⟩ := step_cases hstep
  · exact ⟨.refl _, by rw [hin]; rfl⟩
  · exact absurd (.inl ⟨a, rfl⟩) (kept _ (by rw [hin]; rfl))
  · exact ⟨rfl, rfl⟩
  · exact ⟨rfl, rfl⟩
  · rw [busy] at idle
    cases idle
  · exact absurd (.inr ⟨landed, rfl⟩) (kept _ (by rw [hin]; rfl))
  · exact ⟨rfl, rfl⟩

/-- The same of any number of steps (R319). -/
theorem busy_run {n : Nat} {s t : State} (busy : s.busy = true) (kept : ∀ e ∈ s.inputs, ¬e.EndsWait)
    (hrun : Sys2Proof.core.run n s = .next t) : s.StandsStill t := by
  induction n generalizing s with
  | zero =>
    cases hrun
    exact .refl _
  | succ n ih =>
    obtain ⟨u, hstep, hrun⟩ := core_run_succ hrun
    obtain ⟨still, inputs⟩ := busy_step busy (fun e he => kept e (List.mem_of_mem_head? he)) hstep
    have still_busy : State.busy u = true := (congrArg State.busy still).trans busy
    exact still.trans (ih still_busy (fun e he => kept e (List.mem_of_mem_tail (inputs ▸ he))) hrun)

/-- Settles O48: of the engine's items none is what such a run may change. -/
theorem unansweredTransactionNeverCompletes : Obligations.UnansweredTransactionNeverCompletes := by
  unfold Obligations.UnansweredTransactionNeverCompletes
  intro n s t busy _ unanswered hrun
  have still : s.StandsStill t := by
    refine busy_run busy (fun e he => ?_) hrun
    obtain ⟨no_answer, no_reset⟩ := unanswered e he
    rintro (⟨a, rfl⟩ | ⟨landed, rfl⟩)
    · exact no_answer a rfl
    · exact no_reset landed rfl
  rw [still]
  exact ⟨busy, rfl, rfl, rfl, rfl, rfl, rfl, rfl, rfl⟩

end Sys2Proof.Machine
end

section
/-! A mode change leaves the stored range code, which then means another range (70_reset_and_hazards.md R314). -/

namespace Sys2Proof

/-- A boolean field without inversion holds the boolean last written to it (R64, R65). -/
theorem Field.get_put_ofBool {f : Field} (fits : f.lsb + f.w ≤ 8) (one_bit : f.w = 1) (upright : f.inv = false) (b : Byte)
    (v : Bool) : f.get (f.put b (f.ofBool v)) = if v then 1 else 0 := by
  have stored : f.ofBool v = if v then 1 else 0 := by
    rw [Field.ofBool_eq, upright]
    cases v <;> rfl
  rw [stored]
  refine Field.get_put fits b ?_
  rw [one_bit]
  cases v <;> decide

namespace Machine

/-- Registers of `s` with the mode field as `SET_XL_FSMODE` writes it for `ext` (R138). -/
def State.ModeSet (s : State) (ext : Bool) (regs : List Host.Cell) : Prop :=
  regs = s.regsWith s.cfg.regFsm (s.cfg.fXlFsmode.put (s.reg s.cfg.regFsm) (s.cfg.fXlFsmode.ofBool ext))

/-- `SET_XL_FSMODE` on `OK` (R138). -/
theorem setXlFsmode_onOk {s : State} (hc : s.cfg.wf = true) (ext : Bool) :
    (progOf (.setXlFsmode (if ext then 1 else 0)) s).OnOk s.cfg (fun regs _ => s.ModeSet ext regs) s.regs := by
  obtain ⟨-, -, -, -, -, -, -, modeReg, -⟩ := Cfg.wf_regs hc
  have operand : asBool (if ext then 1 else 0) = some ext := by cases ext <;> rfl
  rw [progOf, operand]
  refine updateFields_onOk hc (Cfg.wf_field_control hc _ s.cfg.fXlFsmode_mem) ?_
  rw [State.ModeSet, ← modeReg]
  rfl

/-- Settles O45: the setter writes the mode's register, which is not the range's, and the getter decodes the code it finds
there in the mode written. -/
theorem modeChangeReinterpretsRange : Obligations.ModeChangeReinterpretsRange := by
  unfold Obligations.ModeChangeReinterpretsRange
  intro s t u ext hc canonical upright code_one busy hset t_idle t_ok hget u_idle u_ok
  obtain ⟨-, -, cfg⟩ := exec_keeps hset
  obtain ⟨-, -, -, -, -, -, -, -, -, -, -, mode_apart⟩ := Cfg.wf_regs hc
  obtain ⟨-, fits, -⟩ := Cfg.wf_shape hc _ s.cfg.fXlFsmode_mem
  obtain ⟨-, -, -, one_bit, -⟩ := Cfg.wf_widths hc
  obtain ⟨byte, others⟩ := State.reg_of_regsWith canonical (exec_onOk busy t_idle t_ok hset (setXlFsmode_onOk hc ext))
  have range_kept : t.reg s.cfg.regCtrlXl = s.reg s.cfg.regCtrlXl := others _ mode_apart.symm
  have data : u.data = word (decXlFs (t.cfg.fXlFsmode.get (t.reg t.cfg.regFsm) == 1)
      (t.cfg.fXlFs.get (t.reg t.cfg.regCtrlXl))).g :=
    exec_onOk rfl u_idle u_ok hget (getXlRange_onOk (s := t.accepting _) (cfg ▸ hc))
  refine ⟨range_kept, ?_⟩
  rw [data, cfg, range_kept, code_one, byte, Field.get_put_ofBool fits one_bit upright]
  cases ext <;> rfl

end Machine
end Sys2Proof
end

section
/-! The transactions of each command (70_reset_and_hazards.md R320): a command's program followed against the list of
transactions it is to issue, of which it issues all where it completes with `OK` and otherwise the first ones. -/

namespace Sys2Proof

/-- The operand 16 is the one that makes `SET_XL_RANGE` and `SET_XL_ODR` read a mode first (R130, R132). -/
theorem XlRange.g_eq_16_iff (v : XlRange) : v.g = 16 ↔ v = .g16 := by cases v <;> decide
theorem XlRate.dHz_eq_16_iff (v : XlRate) : v.dHz = 16 ↔ v = .hz1_6 := by cases v <;> decide

namespace Machine

/-! ### Following a program over the transport port -/

/-- A program started on the registers `regs` puts on the port, each with the device address, transactions of the shapes in
`table`: the first of them, in order, and all of them where it completes with `OK`. -/
def Prog.Issues (c : Cfg) (regs : List Host.Cell) (table : List TxShape) (p : Prog) : Prop :=
  ∀ s : State, s.cfg = c → s.regs = regs →
    ∃ ops : List TxOp, (p.run s).tx = s.tx ++ ops.map (⟨c.devAddr, ·⟩) ∧ ops.map TxOp.shape <+: table ∧
      ((p.run s).pending = none → (p.run s).res = 0 → ops.map TxOp.shape = table)

section
variable {c : Cfg} {regs : List Host.Cell} {table : List TxShape}

/-- A completion issues nothing; only one with `OK` must have come to the end of the table. -/
theorem finish_issues {st : Status} {d : Word} (h : st = .ok → table = []) : (Prog.finish st d).Issues c regs table :=
  fun _ _ _ => ⟨[], by simp, List.nil_prefix, fun _ ok => (h (Status.code_inj.1 ok)).symm⟩

theorem complete_issues {d : Word} : (complete d).Issues c regs [] := finish_issues fun _ => rfl
theorem transport_issues : (raise .errTransport).Issues c regs table := finish_issues nofun

theorem setReady_issues {b : Bool} {p : Prog} (next : p.Issues c regs table) : (Prog.setReady b p).Issues c regs table :=
  fun s => next (s.setReady b)

theorem bump_issues {k : Counter} {p : Prog} (next : p.Issues c regs table) : (Prog.bump k p).Issues c regs table := by
  intro s hc hr
  simpa using next (s.bump k) (by simpa using hc) (by simpa using hr)

/-- Either branch of a test. -/
theorem ite_issues {P : Prop} [Decidable P] {p q : Prog} (hp : P → p.Issues c regs table)
    (hq : ¬P → q.Issues c regs table) : (if P then p else q).Issues c regs table := by
  split
  · next h => exact hp h
  · next h => exact hq h

/-- A command past dispatch (R82). -/
theorem onOperand_issues {α : Type} {o : Option α} {k : α → Prog} (rule : ∀ v, o = some v → (k v).Issues c regs table) :
    (onOperand o k).Issues c regs table := by
  cases o with
  | none => exact finish_issues nofun
  | some v => exact rule v rfl

/-- A transaction is the first of the table, whatever its answer, and what follows it issues the others. -/
theorem xfer_issues {op : TxOp} {k : Reply → Prog}
    (next : ∀ (s : State) (a : Answer), s.cfg = c → s.regs = regs →
      (k (s.reply op a)).Issues c (s.regsAfter op a.ok a.landed) table) :
    (Prog.xfer op k).Issues c regs (op.shape :: table) := by
  intro s hc hr
  rcases s.answer_or_wait with ⟨a, rest, hi⟩ | hw
  · obtain ⟨ops, tx, first, all⟩ := next s a hc hr (s.transact op a) hc (s.transact_regs op a)
    rw [Prog.run_xfer_answer op k s a rest hi]
    refine ⟨op :: ops, ?_, List.cons_prefix_cons.2 ⟨rfl, first⟩, fun idle ok => congrArg _ (all idle ok)⟩
    rw [tx, State.transact_tx, hc, List.append_assoc]
    rfl
  · rw [Prog.run_xfer_wait op k s hw]
    exact ⟨[op], by rw [State.issue_tx, hc]; rfl, List.cons_prefix_cons.2 ⟨rfl, List.nil_prefix⟩, nofun⟩

/-- `ReadReg`, whatever the register reads as (R63). -/
theorem readReg_issues {r : Byte} {k : Byte → Prog} (next : ∀ b, (k b).Issues c regs table) :
    (readReg r k).Issues c regs (.read r :: table) := by
  refine xfer_issues fun _ _ _ hr => ?_
  subst hr
  exact ite_issues (fun _ => next _) fun _ => transport_issues

/-- `ReadReg` of a control register, which reads as the byte it holds (R63, R53 item 2). -/
theorem readControl_issues {r : Byte} {k : Byte → Prog} (hc : c.wf = true) (hr : r ∈ c.controlAddrs)
    (next : (k (Memory.read regs r.toNat)).Issues c regs table) : (readReg r k).Issues c regs (.read r :: table) := by
  refine xfer_issues fun s a cfg same => ite_issues (fun _ => ?_) fun _ => transport_issues
  subst cfg same
  rw [State.reply_readOne_lo, State.devByte_control hc hr]
  exact next

theorem readField_issues {f : Field} {k : Byte → Prog} (next : ∀ b, (k b).Issues c regs table) :
    (readField f k).Issues c regs (.read f.reg :: table) := readReg_issues fun _ => next _
theorem readBool_issues {f : Field} {k : Bool → Prog} (next : ∀ b, (k b).Issues c regs table) :
    (readBool f k).Issues c regs (.read f.reg :: table) := readReg_issues fun _ => next _

/-- `WriteReg`, whatever the registers are then (R63). -/
theorem writeReg_issues {r v : Byte} {p : Prog} (next : ∀ regs, p.Issues c regs table) :
    (writeReg r v p).Issues c regs (.write r :: table) :=
  xfer_issues fun _ _ _ _ => ite_issues (fun _ => next _) fun _ => transport_issues

/-- `UpdateFields` is a read and a write (R65). -/
theorem updateFields_issues {r : Byte} {fs : List (Field × Byte)} {p : Prog} (next : ∀ regs, p.Issues c regs table) :
    (updateFields r fs p).Issues c regs (.read r :: .write r :: table) :=
  readReg_issues fun _ => writeReg_issues next

/-- `UpdateFields` with nothing after it. -/
theorem update_issues {r : Byte} {fs : List (Field × Byte)} :
    (updateFields r fs (complete 0)).Issues c regs [.read r, .write r] :=
  updateFields_issues fun _ => complete_issues

/-- `RawStage` is a burst at the axis's low byte (R231, R232). -/
theorem rawStage_issues {base : Byte} {a : Operand} {ax : Axis} {k : Sample → Prog} (named : asAxis a = some ax)
    (next : ∀ x, (k x).Issues c regs table) :
    (rawStage base ax k).Issues c regs (.burst (base + BitVec.ofNat 8 (2 * a.toNat)) :: table) := by
  rw [← (asAxis_eq_some a ax).1 named]
  refine xfer_issues fun _ _ _ hr => ?_
  subst hr
  exact ite_issues (fun _ => ite_issues (fun _ => bump_issues (next _)) fun _ => next _)
    fun _ => bump_issues transport_issues

theorem reportRate_issues {dHz : Option Nat} : (reportRate dHz).Issues c regs [] := by
  cases dHz with
  | none => exact finish_issues nofun
  | some n => exact complete_issues

/-- The enable setters read, and write unless they are to turn on a sensor that is on (R136, R166). -/
theorem enableProg_issues {f : Field} {off on : Byte} {a : Operand} {v : Bool} (hc : c.wf = true) (hf : f ∈ c.fields)
    (named : asBool a = some v) :
    (enableProg f off on v).Issues c regs ([.read f.reg] ++
      if a.toNat = 1 ∧ f.get (Memory.read regs f.reg.toNat) ≠ off then [] else [.write f.reg]) := by
  rw [← (asBool_eq_some a v).1 named]
  cases v with
  | false => exact update_issues
  | true =>
    rw [enableProg_true]
    refine readControl_issues hc (Cfg.wf_field_control hc f hf) (ite_issues (fun is_off => ?_) fun is_on => ?_)
    · rw [if_neg fun h => h.2 is_off]
      exact writeReg_issues fun _ => complete_issues
    · rw [if_pos ⟨rfl, is_on⟩]
      exact complete_issues

end

/-! ### The table -/

/-- The program of every command issues the transactions of R320's table. -/
theorem progOf_issues (i : Instr) {s : State} (hc : s.cfg.wf = true) :
    (progOf i s).Issues s.cfg s.regs (txTable s i) := by
  obtain ⟨xlOdrReg, xlFsReg, gOdrReg, -, -, bduReg, -, modeReg, xlHpReg, gHpReg, embReg, -⟩ := Cfg.wf_regs hc
  cases i with
  | init a =>
    exact onOperand_issues fun _ _ => setReady_issues (readReg_issues fun _ => ite_issues
      (fun _ => updateFields_issues fun _ => setReady_issues complete_issues) fun _ => finish_issues nofun)
  | setXlRange a =>
    refine onOperand_issues fun v named => ?_
    rw [txTable, ← modeReg, ← (asXlRange_eq_some a v).1 named, if_congr v.g_eq_16_iff rfl rfl]
    by_cases is_g16 : v = .g16
    · subst is_g16
      rw [setXlRangeProg_g16, if_pos rfl]
      exact readField_issues fun _ => update_issues
    · rw [setXlRangeProg_of_ne _ is_g16, if_neg is_g16]
      exact update_issues
  | setXlOdr a =>
    refine onOperand_issues fun v named => ?_
    rw [txTable, ← xlHpReg, ← (asXlRate_eq_some a v).1 named, if_congr v.dHz_eq_16_iff rfl rfl]
    by_cases is_hz1_6 : v = .hz1_6
    · subst is_hz1_6
      rw [setXlOdrProg_hz1_6, if_pos rfl]
      exact readBool_issues fun _ => update_issues
    · rw [setXlOdrProg_of_ne _ is_hz1_6, if_neg is_hz1_6]
      exact update_issues
  | setXlEn a =>
    rw [progOf, setXlEnProg_eq hc, txTable, ← xlOdrReg]
    exact onOperand_issues fun _ => enableProg_issues hc s.cfg.fXlOdr_mem
  | setGEn a =>
    rw [progOf, setGEnProg_eq hc, txTable, ← gOdrReg]
    exact onOperand_issues fun _ => enableProg_issues hc s.cfg.fGOdr_mem
  | setGRange a | setGOdr a => exact onOperand_issues fun _ _ => update_issues
  | setXlHp a | setXlFsmode a | setGHp a | setBdu a | setEmb a =>
    simp only [txTable, ← xlHpReg, ← modeReg, ← gHpReg, ← bduReg, ← embReg]
    exact onOperand_issues fun _ _ => update_issues
  | getXlHp a | getXlFsmode a | getGHp a | getBdu a | getEmb a =>
    simp only [txTable, ← xlHpReg, ← modeReg, ← gHpReg, ← bduReg, ← embReg]
    exact onOperand_issues fun _ _ => readBool_issues fun _ => complete_issues
  | getXlOdr a =>
    rw [progOf, getXlOdrProg_eq, txTable, ← xlOdrReg]
    exact onOperand_issues fun _ _ => readField_issues fun _ => reportRate_issues
  | getGOdr a =>
    rw [progOf, getGOdrProg_eq, txTable, ← gOdrReg]
    exact onOperand_issues fun _ _ => readField_issues fun _ => reportRate_issues
  | getXlEn a | getGEn a =>
    simp only [txTable, ← xlOdrReg, ← gOdrReg]
    exact onOperand_issues fun _ _ => readField_issues fun _ => complete_issues
  | getXlRange a =>
    rw [txTable, ← xlFsReg, ← modeReg]
    exact onOperand_issues fun _ _ => readField_issues fun _ => readField_issues fun _ => complete_issues
  | getGRange a | getDrdy a => exact onOperand_issues fun _ _ => readReg_issues fun _ => complete_issues
  | readXl a =>
    rw [txTable, ← xlFsReg, ← modeReg]
    exact onOperand_issues fun _ named => rawStage_issues named fun _ => readField_issues fun _ =>
      readField_issues fun _ => complete_issues
  | readG a =>
    exact onOperand_issues fun _ named => rawStage_issues named fun _ => readReg_issues fun _ => complete_issues
  | readRawXl a | readRawG a =>
    exact onOperand_issues fun _ named => rawStage_issues named fun _ => complete_issues
  | getAllones a | getOtherfail a => exact onOperand_issues fun _ _ => complete_issues

/-- The requests of a command that has run as far as it goes: none where dispatch rejects it, and otherwise those of its
program. -/
theorem exec_issues {i : Instr} {s t : State} (hc : s.cfg.wf = true) (h : exec i s = .next t) :
    ∃ ops : List TxOp, t.tx = ops.map (⟨s.cfg.devAddr, ·⟩) ∧ ops.map TxOp.shape <+: txTable s i ∧
      (t.pending = none → t.res = 0 → ops.map TxOp.shape = txTable s i) ∧
      (i.wf = false ∨ (i.needsReady = true ∧ s.ready = false) → ops = []) := by
  rcases exec_cases h with ⟨-, rfl⟩ | ⟨-, -, -, rfl⟩ | ⟨valid, dispatched, rfl⟩
  · exact ⟨[], rfl, List.nil_prefix, nofun, fun _ => rfl⟩
  · exact ⟨[], rfl, List.nil_prefix, nofun, fun _ => rfl⟩
  · obtain ⟨ops, tx, first, all⟩ := progOf_issues i hc s.fresh rfl rfl
    refine ⟨ops, tx, first, all, ?_⟩
    rintro (invalid | ⟨needs, not_ready⟩)
    · rw [valid] at invalid
      cases invalid
    · rw [dispatched needs] at not_ready
      cases not_ready

/-- A command that left the engine idle waits for nothing. -/
theorem exec_pending_of_idle {i : Instr} {s t : State} (h : exec i s = .next t) (busy : s.busy = true)
    (idle : t.busy = false) : t.pending = none := by
  by_contra waits
  obtain ⟨still_busy, -⟩ := exec_reports_at_completion h waits
  rw [still_busy, busy] at idle
  cases idle

/-- Settles O47: the requests are those the program puts on the port, read by their shapes. -/
theorem transactionTable : Obligations.TransactionTable := by
  unfold Obligations.TransactionTable
  intro i s t hc busy hexec idle
  obtain ⟨ops, tx, first, all, rejected⟩ := exec_issues hc hexec
  have shapes : t.tx.map (·.op.shape) = ops.map TxOp.shape := by simp [tx]
  rw [shapes]
  refine ⟨all (exec_pending_of_idle hexec busy idle), fun q hq => ?addressed, fun h => ?unissued, first⟩
  case addressed =>
    rw [tx] at hq
    obtain ⟨op, -, rfl⟩ := List.mem_map.1 hq
    rfl
  case unissued => rw [tx, rejected h]; rfl

end Machine
end Sys2Proof
end
